-- ==== Sys2Proof/Word.lean ====
section
/-! DEFINITION. Word.lean: the two widths every rule of the spec is written in (spec/00_scope.md R8, R9). -/

namespace Sys2Proof

/-- A byte: one register value, one transmitted byte, one device number (R8). -/
abbrev Byte := BitVec 8

/-- A command word, 32 bits, bit 31 the most significant (R8, R73). -/
abbrev Word := BitVec 32

end Sys2Proof
end

