-- ==== Sys2Proof/Syntax.lean ====
section
/-! DEFINITION. Syntax.lean: the register names of the devices and the commands of the block, one constructor of
`Instr` for each row of spec/opcode_table.json (spec/30_encoding.md R84), with the operands of R91 in R91's order. -/

namespace Sys2Proof

/-- The 14 register names of a device, in the source's order (spec/20_memory.md R49). -/
inductive RegName where
  | noOp
  | digit0 | digit1 | digit2 | digit3 | digit4 | digit5 | digit6 | digit7
  | decodeMode
  | intensity
  | scanLimit
  | shutdown
  | displayTest
deriving DecidableEq, Repr

/-- Every register name once, in the order of R49: position `k` of the list is REG code `k` (R80). -/
def RegName.all : List RegName :=
  [.noOp, .digit0, .digit1, .digit2, .digit3, .digit4, .digit5, .digit6, .digit7,
   .decodeMode, .intensity, .scanLimit, .shutdown, .displayTest]

/-- The 13 names that are storage: every name but `NO_OP` (R45). -/
def RegName.storage : List RegName := RegName.all.tail

/-- The commands of the block, CDCMD version 1. Each operand has exactly the width of its field (R75 to R82), so a
value that does not fit its field is no term of this type; a REG operand is one of the 14 names, so the reserved
codes 14 and 15 (R80) are none either. -/
inductive Instr where
  /-- ADDRESSED_WRITE dev, REG, val (R77, R104) -/
  | addressedWrite (dev : Byte) (reg : RegName) (val : Byte)
  /-- BROADCAST_WRITE REG, val (R78, R105) -/
  | broadcastWrite (reg : RegName) (val : Byte)
  /-- CONFIGURE dev, decode_mode, intensity, scan_limit (R81, R114) -/
  | configure (dev : Byte) (dm : Byte) (inten : BitVec 4) (sl : BitVec 3)
  /-- CONFIGURE_ALL decode_mode, intensity, scan_limit (R81, R115) -/
  | configureAll (dm : Byte) (inten : BitVec 4) (sl : BitVec 3)
  /-- ENABLE dev (R76, R116) -/
  | enable (dev : Byte)
  /-- DISABLE dev (R76, R117) -/
  | disable (dev : Byte)
  /-- ENABLE_ALL (R75, R118) -/
  | enableAll
  /-- DISABLE_ALL (R75, R119) -/
  | disableAll
  /-- SET_TEST_MODE (R75, R120) -/
  | setTestMode
  /-- CLEAR_TEST_MODE (R75, R121) -/
  | clearTestMode
  /-- WRITE_DIGIT dev, digit, val (R79, R132) -/
  | writeDigit (dev : Byte) (digit : Byte) (val : Byte)
  /-- CLEAR_DIGIT dev, digit (R79, R133) -/
  | clearDigit (dev : Byte) (digit : Byte)
  /-- FILL_DEVICE dev (R76, R134) -/
  | fillDevice (dev : Byte)
  /-- CLEAR_DEVICE dev (R76, R135) -/
  | clearDevice (dev : Byte)
  /-- FILL_ALL (R75, R136) -/
  | fillAll
  /-- CLEAR_ALL (R75, R137) -/
  | clearAll
  /-- SET_CHAIN_LENGTH n (R82, R122) -/
  | setChainLength (n : Byte)
deriving DecidableEq, Repr

end Sys2Proof
end

