-- ==== Sys2Proof/Config.lean ====
section
/-! DEFINITION. Config.lean: the parameters a model of the block takes (spec/00_scope.md R7), and the free values
the spec leaves to no one (spec/20_memory.md R65, spec/70_reset_and_hazards.md R170).

The parameters are DATA, one record held in `State.params` and changed by no step: a claim about every state is a
claim about every choice of parameters. Their defaults stand in Machine/Defaults.lean. -/

namespace Sys2Proof

/-- The parameter `REG_ADDR` (R7, spec/20_memory.md R50): one wire byte for each register name but `NO_OP`, whose
address is 0x00 in every map (R50: "The source fixes only `REG_ADDR(NO_OP) = 0x00`"). -/
structure RegMap where
  digit0 : Byte
  digit1 : Byte
  digit2 : Byte
  digit3 : Byte
  digit4 : Byte
  digit5 : Byte
  digit6 : Byte
  digit7 : Byte
  decodeMode : Byte
  intensity : Byte
  scanLimit : Byte
  shutdown : Byte
  displayTest : Byte
deriving DecidableEq, Repr

/-- The parameter `PHY_BIT_ORDER` (R7, R57). -/
inductive BitOrder where
  | msbFirst
  | lsbFirst
deriving DecidableEq, Repr

/-- The parameter `PHY_SPI_MODE`, 0..3 (R7, R57). -/
inductive SpiMode where
  | mode0 | mode1 | mode2 | mode3
deriving DecidableEq, Repr

/-- The parameters of R7 that have a default. The four OPEN ones, `PHY_SCLK_HZ`, `PHY_T_CSS`, `PHY_T_CSH` and
`PHY_T_CSW`, are the constants `Config.phySclkHz` to `Config.phyTCsw` below. -/
structure Params where
  /-- `CHAIN_LEN_RESET`: CHAIN_LEN after reset, 1..255 -/
  chainLenReset : Byte
  /-- `T_SETTLE_US`: argument of each settle Delay, at least 1 -/
  tSettleUs : Nat
  /-- `REG_ADDR`: injective, with NO_OP at 0x00 -/
  regAddr : RegMap
  /-- `N_PHYS`: devices physically on the chain, 1..255 (reference model only) -/
  nPhys : Byte
  /-- `PHY_BIT_ORDER` (PHY layer only) -/
  phyBitOrder : BitOrder
  /-- `PHY_SPI_MODE` (PHY layer only) -/
  phySpiMode : SpiMode
deriving DecidableEq, Repr

/-- The free draws behind an UNKNOWN byte of the chain (R60, R65, R170, spec/93_implementation_defined.md U10, U11,
U12): draw number `k` is some byte, and nothing says which. No body: no proof can learn a value of it. -/
opaque Config.freeByte : Nat → Byte

/-! The four OPEN timing parameters. R7 calls them only "positive" and gives the three times no unit. DESIGN CHOICE
(notes/assumptions/13.md): each is a positive whole number, the rate in hertz as its name says, the times in one unit that
the model does not name. Safe: nothing is known of the numbers and no rule of `step` reads them; unsafe for a claim that
would rest on their being whole. -/

/-- `PHY_SCLK_HZ`, the clock rate: OPEN, positive (R7). That it is whole is a DESIGN CHOICE. No untimed rule reads it. -/
opaque Config.phySclkHz : ℕ+
/-- `PHY_T_CSS`, the least time from `cs_n` falling to the first clock: OPEN, positive (R7, R57). That it is whole, and
has no named unit, is a DESIGN CHOICE. -/
opaque Config.phyTCss : ℕ+
/-- `PHY_T_CSH`, the least time from the last clock to `cs_n` rising: OPEN, positive (R7, R57). That it is whole, and has
no named unit, is a DESIGN CHOICE. -/
opaque Config.phyTCsh : ℕ+
/-- `PHY_T_CSW`, the least time `cs_n` stays high between frames: OPEN, positive (R7, R57). That it is whole, and has no
named unit, is a DESIGN CHOICE. -/
opaque Config.phyTCsw : ℕ+

end Sys2Proof
end

