-- ==== Sys2Proof/WellFormed.lean ====
section
/-! DEFINITION. WellFormed.lean: which commands AS WRITTEN are well formed (spec/30_encoding.md R91, R92).

A term of `Instr` is well formed by its type: every operand has the width of its field and every register operand is
one of the 14 names. What can be ill formed is a command as a programmer writes it: a mnemonic and operands that are
plain numbers and plain names. R91 gives each mnemonic's operands and R92 the checks; both stand here as one table
and one Boolean. Machine/Assembler.lean turns a written command into an `Instr`; a value that fits its field but is
invalid at execution (dev = 0, digit = 9, n = 0) is well formed (R92, R89). -/

namespace Sys2Proof

/-- An operand as written: a number (decimal or hexadecimal, R90) or a name. -/
inductive AsmOperand where
  | num (n : Nat)
  | name (s : String)
deriving DecidableEq, Repr

/-- One command as written: its mnemonic and its operands, left to right (R90). -/
structure AsmLine where
  mnemonic : String
  operands : List AsmOperand
deriving DecidableEq, Repr

/-- What an operand place of R91 takes. -/
inductive OperandSlot where
  /-- dev, digit, val, decode_mode or n: 0..255 (R92) -/
  | byte
  /-- intensity: 0..15 (R92) -/
  | nibble
  /-- scan_limit: 0..7 (R92) -/
  | threeBits
  /-- a register name of R49 (R92) -/
  | register
deriving DecidableEq, Repr

/-- The register names as the assembler spells them, in the order of R49 (R90: "spelled exactly as there"). -/
def RegName.spellings : List String :=
  ["NO_OP", "DIGIT_0", "DIGIT_1", "DIGIT_2", "DIGIT_3", "DIGIT_4", "DIGIT_5", "DIGIT_6", "DIGIT_7",
   "DECODE_MODE", "INTENSITY", "SCAN_LIMIT", "SHUTDOWN", "DISPLAY_TEST"]

/-- The operand places of each mnemonic (R91's table); `none` for a name that is no mnemonic. -/
def operandSlots : String → Option (List OperandSlot)
  | "ADDRESSED_WRITE"  => some [.byte, .register, .byte]
  | "BROADCAST_WRITE"  => some [.register, .byte]
  | "CONFIGURE"        => some [.byte, .byte, .nibble, .threeBits]
  | "CONFIGURE_ALL"    => some [.byte, .nibble, .threeBits]
  | "ENABLE"           => some [.byte]
  | "DISABLE"          => some [.byte]
  | "ENABLE_ALL"       => some []
  | "DISABLE_ALL"      => some []
  | "SET_TEST_MODE"    => some []
  | "CLEAR_TEST_MODE"  => some []
  | "WRITE_DIGIT"      => some [.byte, .byte, .byte]
  | "CLEAR_DIGIT"      => some [.byte, .byte]
  | "FILL_DEVICE"      => some [.byte]
  | "CLEAR_DEVICE"     => some [.byte]
  | "FILL_ALL"         => some []
  | "CLEAR_ALL"        => some []
  | "SET_CHAIN_LENGTH" => some [.byte]
  | _                  => none

/-- Does the operand fit the place (R92's range checks and its register-name check)? -/
def OperandSlot.accepts : OperandSlot → AsmOperand → Bool
  | .byte, .num n => decide (n ≤ 255)
  | .nibble, .num n => decide (n ≤ 15)
  | .threeBits, .num n => decide (n ≤ 7)
  | .register, .name s => RegName.spellings.contains s
  | _, _ => false

/-- Do the operands fit the places, one operand to each place? -/
def slotsAccept : List OperandSlot → List AsmOperand → Bool
  | [], [] => true
  | s :: ss, o :: os => s.accepts o && slotsAccept ss os
  | _, _ => false

/-- A written command is well formed: its mnemonic is one of the 17, and its operands fit that mnemonic's places. -/
def AsmLine.wellFormed (l : AsmLine) : Bool :=
  match operandSlots l.mnemonic with
  | some slots => slotsAccept slots l.operands
  | none => false

end Sys2Proof
end

