-- ==== Sys2Proof/Decode.lean ====
section
/-! DEFINITION. Decode.lean: the command word (spec/30_encoding.md §1 to §5): its fields, the opcode map's rows, the
total decoder that rejects by name, and after it the encoder written from the same table. -/

namespace Sys2Proof

/-! ### Fields of the word (R74 to R82) -/

/-- OP = `w[31:27]` (R74). -/
def opField (w : Word) : BitVec 5 := w.extractLsb' 27 5
/-- DEV = `w[23:16]` (R74). -/
def devField (w : Word) : Byte := w.extractLsb' 16 8
/-- B1 = `w[15:8]`: DIGIT of format G, DM of format C (R74, R79, R81). -/
def b1Field (w : Word) : Byte := w.extractLsb' 8 8
/-- B0 = `w[7:0]`: VAL of formats R, B and G, NLEN of format L (R74, R77, R79, R82). -/
def b0Field (w : Word) : Byte := w.extractLsb' 0 8
/-- REG = `w[11:8]` of formats R and B (R77, R78). -/
def regField (w : Word) : BitVec 4 := w.extractLsb' 8 4
/-- SL = `w[6:4]` of formats C and C0 (R81). -/
def slField (w : Word) : BitVec 3 := w.extractLsb' 4 3
/-- IN = `w[3:0]` of formats C and C0 (R81). -/
def inField (w : Word) : BitVec 4 := w.extractLsb' 0 4

/-! ### Register codes (R80) -/

/-- The REG field code of a register name: its position in the source's enumeration (R80). It is not the wire
address, which is `RegMap.addr`. -/
def RegName.code : RegName → BitVec 4
  | .noOp => 0 | .digit0 => 1 | .digit1 => 2 | .digit2 => 3 | .digit3 => 4 | .digit4 => 5 | .digit5 => 6
  | .digit6 => 7 | .digit7 => 8 | .decodeMode => 9 | .intensity => 10 | .scanLimit => 11 | .shutdown => 12
  | .displayTest => 13

/-- The register name a REG code selects; `none` for the reserved codes 14 and 15 (R80). -/
def RegName.ofCode (c : BitVec 4) : Option RegName := RegName.all[c.toNat]?

/-! ### The opcode map (R84) -/

/-- One row of the opcode map: the bits the row fixes (`mask`) and their values (`pattern`, the map's "match"). -/
structure OpcodeRow where
  pattern : Word
  mask : Word
deriving DecidableEq, Repr

/-- Is the word one of the row's: `(w & mask) == match` (R85)? -/
def OpcodeRow.fits (r : OpcodeRow) (w : Word) : Bool := (w &&& r.mask) == r.pattern

def rowAddressedWrite : OpcodeRow := ⟨0x08000000#32, 0xFF00F000#32⟩
def rowBroadcastWrite : OpcodeRow := ⟨0x10000000#32, 0xFFFFF000#32⟩
def rowConfigure      : OpcodeRow := ⟨0x18000000#32, 0xFF000080#32⟩
def rowConfigureAll   : OpcodeRow := ⟨0x20000000#32, 0xFFFF0080#32⟩
def rowEnable         : OpcodeRow := ⟨0x28000000#32, 0xFF00FFFF#32⟩
def rowDisable        : OpcodeRow := ⟨0x30000000#32, 0xFF00FFFF#32⟩
def rowEnableAll      : OpcodeRow := ⟨0x38000000#32, 0xFFFFFFFF#32⟩
def rowDisableAll     : OpcodeRow := ⟨0x40000000#32, 0xFFFFFFFF#32⟩
def rowSetTestMode    : OpcodeRow := ⟨0x48000000#32, 0xFFFFFFFF#32⟩
def rowClearTestMode  : OpcodeRow := ⟨0x50000000#32, 0xFFFFFFFF#32⟩
def rowWriteDigit     : OpcodeRow := ⟨0x58000000#32, 0xFF000000#32⟩
def rowClearDigit     : OpcodeRow := ⟨0x60000000#32, 0xFF0000FF#32⟩
def rowFillDevice     : OpcodeRow := ⟨0x68000000#32, 0xFF00FFFF#32⟩
def rowClearDevice    : OpcodeRow := ⟨0x70000000#32, 0xFF00FFFF#32⟩
def rowFillAll        : OpcodeRow := ⟨0x78000000#32, 0xFFFFFFFF#32⟩
def rowClearAll       : OpcodeRow := ⟨0x80000000#32, 0xFFFFFFFF#32⟩
def rowSetChainLength : OpcodeRow := ⟨0x88000000#32, 0xFFFFFF00#32⟩

/-- The whole opcode map, in the order of R84. -/
def opcodeMap : List OpcodeRow :=
  [rowAddressedWrite, rowBroadcastWrite, rowConfigure, rowConfigureAll, rowEnable, rowDisable, rowEnableAll,
   rowDisableAll, rowSetTestMode, rowClearTestMode, rowWriteDigit, rowClearDigit, rowFillDevice, rowClearDevice,
   rowFillAll, rowClearAll, rowSetChainLength]

/-! ### The decoder (R85 to R88) -/

/-- Why a word spells no command. All three are the one status IllegalCommand at execution (R147); the names tell
R86's, R87's and R85's cases apart. -/
inductive Illegal where
  /-- OP is 0x00 or 0x12..0x1F (R86) -/
  | reservedOpcode
  /-- OP is valid and a reserved-zero bit is 1 (R87) -/
  | reservedBits
  /-- the row is ADDRESSED_WRITE or BROADCAST_WRITE and REG is 14 or 15 (R85) -/
  | reservedRegister
deriving DecidableEq, Repr

/-- Is the opcode one of the reserved ones, 0x00 and 0x12..0x1F (R86)? -/
def opcodeReserved (op : BitVec 5) : Bool := op == 0x00#5 || decide (0x12 ≤ op.toNat)

/-- Attach the register a word's REG field names, or reject codes 14 and 15 (R85). -/
def withRegister (w : Word) (f : RegName → Instr) : Except Illegal Instr :=
  match RegName.ofCode (regField w) with
  | some r => .ok (f r)
  | none => .error .reservedRegister

/-- `decode(w)` of R85: the one row the word fits, with its fields, or the reason there is none. Total on all
2^32 words. -/
def decode (w : Word) : Except Illegal Instr :=
  if rowAddressedWrite.fits w then withRegister w (fun r => .addressedWrite (devField w) r (b0Field w))
  else if rowBroadcastWrite.fits w then withRegister w (fun r => .broadcastWrite r (b0Field w))
  else if rowConfigure.fits w then .ok (.configure (devField w) (b1Field w) (inField w) (slField w))
  else if rowConfigureAll.fits w then .ok (.configureAll (b1Field w) (inField w) (slField w))
  else if rowEnable.fits w then .ok (.enable (devField w))
  else if rowDisable.fits w then .ok (.disable (devField w))
  else if rowEnableAll.fits w then .ok .enableAll
  else if rowDisableAll.fits w then .ok .disableAll
  else if rowSetTestMode.fits w then .ok .setTestMode
  else if rowClearTestMode.fits w then .ok .clearTestMode
  else if rowWriteDigit.fits w then .ok (.writeDigit (devField w) (b1Field w) (b0Field w))
  else if rowClearDigit.fits w then .ok (.clearDigit (devField w) (b1Field w))
  else if rowFillDevice.fits w then .ok (.fillDevice (devField w))
  else if rowClearDevice.fits w then .ok (.clearDevice (devField w))
  else if rowFillAll.fits w then .ok .fillAll
  else if rowClearAll.fits w then .ok .clearAll
  else if rowSetChainLength.fits w then .ok (.setChainLength (b0Field w))
  else if opcodeReserved (opField w) then .error .reservedOpcode
  else .error .reservedBits

/-- The decoder on an instruction numbered as spec/opcode_table.json numbers it: bit 0 of `w` is bit 0 of the one
32-bit word (R73: one length only, presented in parallel, so there is no byte order to lay it out in). Bits above
`nbits` are 0; an instruction longer than one word does not exist. -/
def decodeTableWord (nbits w : Nat) : Option Instr :=
  if nbits ≤ 32 then
    match decode (BitVec.ofNat 32 (w % 2 ^ nbits)) with
    | .ok i => some i
    | .error _ => none
  else none

/-! ### The encoder (R74 to R84) -/

/-- A word from its grid: OP in bits 31:27, Z = 0, DEV in bits 23:16, B1 in bits 15:8, B0 in bits 7:0 (R74). -/
def gridWord (op : BitVec 5) (dev b1 b0 : Byte) : Word :=
  (op.setWidth 32 <<< 27) ||| (dev.setWidth 32 <<< 16) ||| (b1.setWidth 32 <<< 8) ||| b0.setWidth 32

/-- B1 of formats R and B: `w[15:12] = 0` and REG (R77, R78). -/
def regByte (r : RegName) : Byte := r.code.setWidth 8

/-- B0 of formats C and C0: `w[7] = 0`, SL in `w[6:4]` and IN in `w[3:0]` (R81). -/
def scanIntensityByte (inten : BitVec 4) (sl : BitVec 3) : Byte := (sl.setWidth 8 <<< 4) ||| inten.setWidth 8

/-- The one word that spells a command (R74 to R84). -/
def encode : Instr → Word
  | .addressedWrite dev reg val => gridWord 0x01 dev (regByte reg) val
  | .broadcastWrite reg val => gridWord 0x02 0 (regByte reg) val
  | .configure dev dm inten sl => gridWord 0x03 dev dm (scanIntensityByte inten sl)
  | .configureAll dm inten sl => gridWord 0x04 0 dm (scanIntensityByte inten sl)
  | .enable dev => gridWord 0x05 dev 0 0
  | .disable dev => gridWord 0x06 dev 0 0
  | .enableAll => gridWord 0x07 0 0 0
  | .disableAll => gridWord 0x08 0 0 0
  | .setTestMode => gridWord 0x09 0 0 0
  | .clearTestMode => gridWord 0x0A 0 0 0
  | .writeDigit dev digit val => gridWord 0x0B dev digit val
  | .clearDigit dev digit => gridWord 0x0C dev digit 0
  | .fillDevice dev => gridWord 0x0D dev 0 0
  | .clearDevice dev => gridWord 0x0E dev 0 0
  | .fillAll => gridWord 0x0F 0 0 0
  | .clearAll => gridWord 0x10 0 0 0
  | .setChainLength n => gridWord 0x11 0 0 n

end Sys2Proof
end

