-- ==== Sys2Proof/Machine/Operands.lean ====
section
/-! DEFINITION. Machine/Operands.lean: what a command does with its operands before any event is emitted: the wire
address of a register name, the two validity checks, the digit's register, and the widening of the short fields. -/

namespace Sys2Proof

/-- `REG_ADDR(name)`: the wire byte of a register name (spec/20_memory.md R50). Not the REG code (R80). -/
def RegMap.addr (m : RegMap) : RegName → Byte
  | .noOp => 0x00
  | .digit0 => m.digit0 | .digit1 => m.digit1 | .digit2 => m.digit2 | .digit3 => m.digit3
  | .digit4 => m.digit4 | .digit5 => m.digit5 | .digit6 => m.digit6 | .digit7 => m.digit7
  | .decodeMode => m.decodeMode | .intensity => m.intensity | .scanLimit => m.scanLimit
  | .shutdown => m.shutdown | .displayTest => m.displayTest

namespace Machine

/-- `valid_dev(d, N)`: `1 <= d <= N`, unsigned (spec/40_chain_primitives.md R103). -/
def validDev (d n : Byte) : Bool := decide (1 ≤ d.toNat) && decide (d.toNat ≤ n.toNat)

/-- `digit_reg(k)`: DIGIT_(k-1) for `1 <= k <= 8`, and nothing for every other value of the field, 0 and 9..255
(spec/42_digit_buffer_ops.md R131). -/
def digitReg (k : Byte) : Option RegName :=
  match k.toNat with
  | 1 => some .digit0
  | 2 => some .digit1
  | 3 => some .digit2
  | 4 => some .digit3
  | 5 => some .digit4
  | 6 => some .digit5
  | 7 => some .digit6
  | 8 => some .digit7
  | _ => none

/-- The eight digit registers in ascending digit order 1..8, the order of FILL_DEVICE and its kin
(spec/42_digit_buffer_ops.md R134: "The digits go in ascending order 1..8"). -/
def digitRegs : List RegName := [.digit0, .digit1, .digit2, .digit3, .digit4, .digit5, .digit6, .digit7]

/-- `zext_8(IN)`: the intensity field as a value byte (spec/30_encoding.md R83). -/
def intensityByte (inten : BitVec 4) : Byte := inten.zeroExtend 8

/-- `zext_8(SL)`: the scan-limit field as a value byte (spec/30_encoding.md R83). -/
def scanLimitByte (sl : BitVec 3) : Byte := sl.zeroExtend 8

end Machine
end Sys2Proof
end

