-- ==== Sys2Proof/Machine/Bus.lean ====
section
/-! DEFINITION. Machine/Bus.lean: bus events and the frames made of them: the pure functions of
spec/40_chain_primitives.md §1 and the settle delay of spec/41_configuration_ops.md §1. -/

namespace Sys2Proof.Machine

/-- A bus event: one of the three calls the block makes on the transport (spec/00_scope.md R11). -/
inductive BusEvent where
  /-- `Sel(b)`: chip-select to asserted (`true`, line low) or deasserted (`false`, line high) -/
  | sel (active : Bool)
  /-- `Tx(b)`: transmit one byte -/
  | tx (b : Byte)
  /-- `Delay(n)`: wait at least `n` microseconds -/
  | delay (us : Nat)
deriving DecidableEq, Repr

/-- `concat [ f(p) | p = a to a + count - 1 ]`, ascending; empty when `count` is 0 (spec/00_scope.md R12). -/
def concatUp {α : Type} (f : Nat → List α) (a : Nat) : Nat → List α
  | 0 => []
  | count + 1 => f a ++ concatUp f (a + 1) count

/-- `concat [ f(p) | p = n downto 1 ]`, descending; empty when `n` is 0 (spec/00_scope.md R12). -/
def concatDown {α : Type} (f : Nat → List α) : Nat → List α
  | 0 => []
  | n + 1 => f (n + 1) ++ concatDown f n

/-- `pair(a, v)`: two transmitted bytes, register byte first (R100, spec/20_memory.md R51). -/
def pair (a v : Byte) : List BusEvent := [.tx a, .tx v]

/-- The no-op pair `(0x00, 0x00)` (R100). -/
def noOpPair : List BusEvent := pair 0x00 0x00

/-- `addr_frame(N, d, a, v)`: one frame of N pairs in descending chain position, the pair at position `d` the target's
and every other one a no-op pair (R101). The descending order is the hardware's contract (spec/20_memory.md R52,
spec/70_reset_and_hazards.md R178). -/
def addrFrame (n d : Byte) (a v : Byte) : List BusEvent :=
  [.sel true] ++ concatDown (fun p => if p = d.toNat then pair a v else noOpPair) n.toNat ++ [.sel false]

/-- `bcast_frames(N, a, v)`: N frames of one pair each (R102, R109; spec/90_conflicts.md C1). -/
def bcastFrames (n : Byte) (a v : Byte) : List BusEvent :=
  concatUp (fun _ => [.sel true] ++ pair a v ++ [.sel false]) 1 n.toNat

/-- `settle`: the one Delay between two category writes (spec/41_configuration_ops.md R113). -/
def settle (p : Params) : List BusEvent := [.delay p.tSettleUs]

/-- `concat [ addr_frame(N, d, REG_ADDR(DIGIT_(k-1)), v) | k = 1 to 8 ]`: the eight digit frames of one device, in
ascending digit order (spec/42_digit_buffer_ops.md R134, R135). -/
def digitFrames (m : RegMap) (n d : Byte) (v : Byte) : List BusEvent :=
  digitRegs.flatMap (fun r => addrFrame n d (m.addr r) v)

/-- The digit frames of every device, device-major: d = 1..N ascending, and within each device digits 1..8
(spec/42_digit_buffer_ops.md R136, R137). -/
def allDigitFrames (m : RegMap) (n : Byte) (v : Byte) : List BusEvent :=
  concatUp (fun d => digitFrames m n (BitVec.ofNat 8 d) v) 1 n.toNat

end Sys2Proof.Machine
end

