-- ==== Sys2Proof/Machine/Chain.lean ====
section
/-! DEFINITION. Machine/Chain.lean: the chain reference model, the devices outside the block
(spec/20_memory.md §5, R60 to R68; general knowledge in the spec's own words, notes/assumptions/6.md). The device
register space of R45 is the register files here; the block reaches it only through frames (R48), so nothing below is
read by a command. -/

namespace Sys2Proof.Machine

/-- A byte of a device: a known byte, or UNKNOWN (R60: "u8 or UNKNOWN"). An UNKNOWN is a free draw (R65): it carries
the number of its draw, and its value is `Config.freeByte` of that number, of which nothing is known. -/
inductive Cell where
  | known (b : Byte)
  | unknown (draw : Nat)
deriving DecidableEq, Repr

/-- The byte a cell holds. -/
def Cell.value : Cell → Byte
  | .known b => b
  | .unknown k => Config.freeByte k

/-- The register file `REG_j` of one device: 13 bytes; `NO_OP` is not storage (R45, R60). -/
structure RegFile where
  digit0 : Cell
  digit1 : Cell
  digit2 : Cell
  digit3 : Cell
  digit4 : Cell
  digit5 : Cell
  digit6 : Cell
  digit7 : Cell
  decodeMode : Cell
  intensity : Cell
  scanLimit : Cell
  shutdown : Cell
  displayTest : Cell
deriving DecidableEq, Repr

/-- What a register holds, for claims about the devices (R48: no command reads it); none for `NO_OP`. -/
def RegFile.read (f : RegFile) : RegName → Option Cell
  | .noOp => none
  | .digit0 => some f.digit0 | .digit1 => some f.digit1 | .digit2 => some f.digit2 | .digit3 => some f.digit3
  | .digit4 => some f.digit4 | .digit5 => some f.digit5 | .digit6 => some f.digit6 | .digit7 => some f.digit7
  | .decodeMode => some f.decodeMode | .intensity => some f.intensity | .scanLimit => some f.scanLimit
  | .shutdown => some f.shutdown | .displayTest => some f.displayTest

/-- `REG_j[name] <- v`, the MemWrite of R64 and of spec/00_scope.md R10; a write to `NO_OP` changes nothing (R45). -/
def RegFile.write (f : RegFile) (n : RegName) (v : Cell) : RegFile :=
  match n with
  | .noOp => f
  | .digit0 => { f with digit0 := v }
  | .digit1 => { f with digit1 := v }
  | .digit2 => { f with digit2 := v }
  | .digit3 => { f with digit3 := v }
  | .digit4 => { f with digit4 := v }
  | .digit5 => { f with digit5 := v }
  | .digit6 => { f with digit6 := v }
  | .digit7 => { f with digit7 := v }
  | .decodeMode => { f with decodeMode := v }
  | .intensity => { f with intensity := v }
  | .scanLimit => { f with scanLimit := v }
  | .shutdown => { f with shutdown := v }
  | .displayTest => { f with displayTest := v }

/-- How many draws a whole register file takes. -/
def regFileDraws : Nat := 13

/-- A register file of free draws, numbers `k` to `k + 12` (R64's "any value", R65, R170). -/
def freeRegFile (k : Nat) : RegFile where
  digit0 := .unknown k
  digit1 := .unknown (k + 1)
  digit2 := .unknown (k + 2)
  digit3 := .unknown (k + 3)
  digit4 := .unknown (k + 4)
  digit5 := .unknown (k + 5)
  digit6 := .unknown (k + 6)
  digit7 := .unknown (k + 7)
  decodeMode := .unknown (k + 8)
  intensity := .unknown (k + 9)
  scanLimit := .unknown (k + 10)
  shutdown := .unknown (k + 11)
  displayTest := .unknown (k + 12)

/-- One device: its shift register `SR_j = (A_j, D_j)`, `A_j` the byte that entered first, and its register file
(R60). -/
structure Device where
  a : Cell
  d : Cell
  regs : RegFile
deriving DecidableEq, Repr

/-- How many draws a whole device takes. -/
def deviceDraws : Nat := 15

/-- A device all of whose bytes are free draws, numbers `k` to `k + 14`. -/
def freeDevice (k : Nat) : Device where
  a := .unknown k
  d := .unknown (k + 1)
  regs := freeRegFile (k + 2)

/-- `n` such devices: the chain at power-on (R65), and after a reset of the block in mid-frame (R170). -/
def freeChain (k : Nat) : Nat → List Device
  | 0 => []
  | n + 1 => freeDevice k :: freeChain (k + deviceDraws) n

/-- The chain's shift registers as one byte queue, `[A_NPHYS, D_NPHYS, ..., A_1, D_1]`, the furthest device at the
left end (R61). Device 1 is the head of the list. -/
def chainQueue : List Device → List Cell
  | [] => []
  | dev :: rest => chainQueue rest ++ [dev.a, dev.d]

/-- One byte enters the chain: `SR_1 <- (D_1, b)` and `SR_j <- (D_j, A_(j-1))`, from the old values; the byte that
leaves the last device is lost (R62). -/
def shiftIn (b : Cell) : List Device → List Device
  | [] => []
  | dev :: rest => { dev with a := dev.d, d := b } :: shiftIn dev.a rest

/-- The low nibble of a wire address, all a device decodes of it (R64). -/
def lowNibble (b : Byte) : BitVec 4 := b.extractLsb' 0 4

/-- What a device does with a latched pair (R64). -/
inductive LatchTarget where
  /-- nibble 0: nothing -/
  | noOp
  /-- the nibble of a register -/
  | store (n : RegName)
  /-- an address the spec does not specify: the whole register file becomes a free draw -/
  | unspecified
deriving DecidableEq, Repr

/-- `DEC`, with R64's case split: the register whose wire address has this low nibble. For the default map it is the
inverse R64 names (0x0 does nothing, 0x1..0xC and 0xF store, 0xD and 0xE are unspecified); for another map "a model
must give its own DEC" (R64), and this one reads the map itself: a nibble that no register or more than one register
has is unspecified. Mark: DESIGN CHOICE (notes/assumptions/7.md), unsafe for a non-default map. -/
def latchTarget (m : RegMap) (x : BitVec 4) : LatchTarget :=
  if x = 0 then .noOp
  else
    match RegName.storage.filter (fun n => lowNibble (m.addr n) == x) with
    | [n] => .store n
    | _ => .unspecified

/-- `latch(j)` of R64, with draws from number `k` if the address is unspecified. -/
def latchDevice (m : RegMap) (k : Nat) (dev : Device) : Device :=
  match latchTarget m (lowNibble dev.a.value) with
  | .noOp => dev
  | .store n => { dev with regs := dev.regs.write n dev.d }
  | .unspecified => { dev with regs := freeRegFile k }

/-- Every device latches its shift register at once (R64). Each device has 13 draw numbers of its own. -/
def latchAll (m : RegMap) (k : Nat) : List Device → List Device
  | [] => []
  | dev :: rest => latchDevice m k dev :: latchAll m (k + regFileDraws) rest

end Sys2Proof.Machine
end

