-- ==== Sys2Proof/Machine/Defaults.lean ====
section
/-! DEFINITION. Machine/Defaults.lean: the default of every parameter (spec/00_scope.md R7), and the parameters' legal
values. -/

namespace Sys2Proof

/-- The default `REG_ADDR` (spec/20_memory.md R50): the MAX7219/MAX7221 map, general knowledge in the spec's own
words. Mark: PRESUMED (notes/assumptions/4.md), unsafe for a claim about a wire byte other than 0x00. -/
def RegMap.default : RegMap where
  digit0 := 0x01
  digit1 := 0x02
  digit2 := 0x03
  digit3 := 0x04
  digit4 := 0x05
  digit5 := 0x06
  digit6 := 0x07
  digit7 := 0x08
  decodeMode := 0x09
  intensity := 0x0A
  scanLimit := 0x0B
  shutdown := 0x0C
  displayTest := 0x0F

/-- The default of every parameter (R7). `N_PHYS` defaults to CHAIN_LEN (R7, D30), whose value at power-on is
CHAIN_LEN_RESET = 1. Mark: DESIGN CHOICE (notes/assumptions/3.md), unsafe: a claim about `State.reset` rests on
these. -/
def Params.default : Params where
  chainLenReset := 1
  tSettleUs := 1
  regAddr := RegMap.default
  nPhys := 1
  phyBitOrder := .msbFirst
  phySpiMode := .mode0

end Sys2Proof
end

