-- ==== Sys2Proof/Machine/Flags.lean ====
section
/-! DEFINITION. Machine/Flags.lean: the block has no condition codes and no predicates (spec/10_state.md R22); its one
status indication besides BUSY is the code of the last completed command (R26, spec/60_exceptions.md R146). -/

namespace Sys2Proof.Machine

/-- A status code: STATUS and PEND_STATUS are two bits wide and all four values are legal (R26, R146). -/
inductive Status where
  /-- 0: the command was executed in full -/
  | ok
  /-- 1: DEV is 0 or exceeds CHAIN_LEN, or SET_CHAIN_LENGTH with n = 0 -/
  | invalidDevice
  /-- 2: DIGIT is outside 1..8 -/
  | invalidDigit
  /-- 3: the word decodes to Illegal -/
  | illegalCommand
deriving DecidableEq, Repr

/-- The number the status port shows for a code, STATUS bits [1:0] (R26, R146). -/
def Status.code : Status → BitVec 2
  | .ok => 0
  | .invalidDevice => 1
  | .invalidDigit => 2
  | .illegalCommand => 3

end Sys2Proof.Machine
end

