-- ==== Sys2Proof/Machine/State.lean ====
section
/-! DEFINITION. Machine/State.lean: the state of the machine: the block's eight registers (spec/10_state.md R23), the
devices outside it (spec/20_memory.md R60), the input pins still to come (R32, R33, R40), what the outside has
observed so far (R43, spec/70_reset_and_hazards.md R182), and the parameters (spec/00_scope.md R7). -/

namespace Sys2Proof.Machine

/-- The block's input pins in one step: `rst` (spec/70_reset_and_hazards.md R166), `cmd_valid` and `cmd_word`
(spec/10_state.md R32), `ev_ack` (R33). -/
structure Pins where
  rst : Bool
  cmdValid : Bool
  cmdWord : Word
  evAck : Bool
deriving DecidableEq, Repr

/-- Nobody does anything. -/
def Pins.quiet : Pins := { rst := false, cmdValid := false, cmdWord := 0, evAck := false }
/-- The host offers a command word. -/
def Pins.command (w : Word) : Pins := { rst := false, cmdValid := true, cmdWord := w, evAck := false }
/-- The transport acknowledges the presented event. -/
def Pins.ack : Pins := { rst := false, cmdValid := false, cmdWord := 0, evAck := true }
/-- The reset input is asserted. -/
def Pins.reset : Pins := { rst := true, cmdValid := false, cmdWord := 0, evAck := false }

/-- The whole state. -/
structure State where
  /-- CHAIN_LEN, N (R24) -/
  chainLen : Byte
  /-- STATUS: the code of the last completed command (R26) -/
  status : Status
  /-- RESULT: the data result of the last completed command (R27) -/
  result : Byte
  /-- BUSY (R28) -/
  busy : Bool
  /-- CS_ASSERTED; the `cs_n` pin is its negation (R29) -/
  csAsserted : Bool
  /-- PENDING: the current command's events not yet acknowledged, head first (R30) -/
  pending : List BusEvent
  /-- PEND_STATUS: the status the current command will write (R30) -/
  pendStatus : Status
  /-- PEND_RESULT: the result the current command will write (R30) -/
  pendResult : Byte
  /-- the physical devices, device 1 first: their shift registers and register files, outside the block (R41, R60);
  N_PHYS is the length of this list -/
  chain : List Device
  /-- MODEL'S OWN: the next number of a free draw behind an UNKNOWN byte (R65; notes/assumptions/5.md) -/
  draws : Nat
  /-- the pins of the steps to come, next step first: what the host, the transport and the reset line will do; each
  step takes the head, and after the last one every pin is low (R40; notes/assumptions/1.md) -/
  inputs : List Pins
  /-- OBSERVATION: the bus events acknowledged so far, in order (R43, R182) -/
  emitted : List BusEvent
  /-- OBSERVATION: the status each completed command wrote, in order (R182) -/
  completions : List Status
  /-- the parameters (spec/00_scope.md R7); no step changes them -/
  params : Params
deriving DecidableEq, Repr

/-- Why the machine stops with a fault: never. The block has no trap (spec/60_exceptions.md R153), an error is an
ordinary completion (R148), and a transport that never acknowledges is a state that stays as it is (R152), so this
type has no constructor. Safe: nothing the spec describes is stopped. -/
inductive Fault where
deriving DecidableEq, Repr

/-- Why an instruction has no meaning. -/
inductive Refusal where
  /-- raised by `exec` for an instruction of the table that has no meaning yet, with its mnemonic. Safe: the model
  stops where the hardware goes on. No arm raises it: all 17 commands have their meaning. -/
  | notModelled (mnemonic : String)
deriving DecidableEq, Repr

/-- The machine at power-on with given parameters: every block register at its reset value
(spec/10_state.md R23, R42), every byte of the chain UNKNOWN (spec/20_memory.md R65), nothing observed yet, every
pin low. -/
def State.powerOn (p : Params) : State where
  chainLen := p.chainLenReset
  status := .ok
  result := 0x00
  busy := false
  csAsserted := false
  pending := []
  pendStatus := .ok
  pendResult := 0x00
  chain := freeChain 0 p.nPhys.toNat
  draws := deviceDraws * p.nPhys.toNat
  inputs := []
  emitted := []
  completions := []
  params := p

/-- The machine right after reset with the default parameters (R7, R42). -/
def State.reset : State := State.powerOn Params.default

end Sys2Proof.Machine
end

