-- ==== Sys2Proof/Machine/Ops.lean ====
section
/-! DEFINITION. Machine/Ops.lean: the named operations over the state: what a command hands to the sequencer, the
accept step, the emit step, completion, an error's report, and the reset of the block's registers
(spec/10_state.md §4, spec/60_exceptions.md §1, spec/70_reset_and_hazards.md §1). -/

namespace Sys2Proof.Machine

/-- What a command answers, `exec(S, w) = (status, result, events, S')` (spec/00_scope.md R13). Of the new state S'
only CHAIN_LEN can differ from S (spec/10_state.md R35), so it stands for S'. -/
structure Reply where
  status : Status
  result : Byte
  events : List BusEvent
  chainLen : Byte
deriving DecidableEq, Repr

/-- A command that is carried out in full: `(OK, 0x00, events, S)`. -/
def Reply.play (s : State) (evs : List BusEvent) : Reply :=
  { status := .ok, result := 0x00, events := evs, chainLen := s.chainLen }

/-- TAKING AN ERROR, the block's only exceptional outcome: `(code, 0x00, [], S)`. It saves nothing but the code, emits
nothing and redirects nothing (spec/60_exceptions.md R147, R148, R150, R153). There is no return from it: the next
command is accepted normally (R154). -/
def Reply.raise (s : State) (code : Status) : Reply :=
  { status := code, result := 0x00, events := [], chainLen := s.chainLen }

/-- A command writes STATUS and RESULT at its completion (spec/10_state.md R26, R27), and the outside can then read
the status (spec/70_reset_and_hazards.md R182). -/
def State.report (s : State) (code : Status) (res : Byte) : State :=
  { s with status := code, result := res, completions := s.completions ++ [code] }

/-- The accept step of R35, given the command's answer: without events the command completes in this step; with
events they become PENDING and the block is BUSY. -/
def accept (r : Reply) (s : State) : State :=
  match r.events with
  | [] => State.report { s with chainLen := r.chainLen } r.status r.result
  | e :: es =>
    { s with
      chainLen := r.chainLen
      pending := e :: es
      pendStatus := r.status
      pendResult := r.result
      busy := true }

/-- `complete()` of R37. -/
def complete (s : State) : State :=
  { State.report s s.pendStatus s.pendResult with busy := false, pendStatus := .ok, pendResult := 0x00 }

/-- What an acknowledged event does to the chip-select line and to the devices: `Sel(b)` drives the line (R29, R36)
and, when it deasserts it, every device latches (spec/20_memory.md R64); `Tx(b)` shifts one byte in (R62); `Sel(true)`
and `Delay(n)` change nothing on the chain (R63). -/
def onAck (e : BusEvent) (s : State) : State :=
  match e with
  | .sel true => { s with csAsserted := true }
  | .sel false =>
    { s with
      csAsserted := false
      chain := latchAll s.params.regAddr s.draws s.chain
      draws := s.draws + regFileDraws * s.chain.length }
  | .tx b => { s with chain := shiftIn (.known b) s.chain }
  | .delay _ => s

/-- The emit step of R36, on the acknowledgement of the presented event: the event takes effect, leaves PENDING and
joins what was emitted; if it was the last, the command completes. With nothing presented there is nothing to
acknowledge (no reachable state is BUSY with PENDING empty; notes/assumptions/10.md). -/
def emitHead (s : State) : State :=
  match s.pending with
  | [] => s
  | [e] => complete { onAck e s with pending := [], emitted := s.emitted ++ [e] }
  | e :: e' :: es => { onAck e s with pending := e' :: es, emitted := s.emitted ++ [e] }

/-- The chain when the block is reset: untouched, unless chip-select was asserted; then `cs_n` rises in mid-frame and
every byte of every device is a free draw (spec/70_reset_and_hazards.md R169, R170). -/
def chainOnReset (s : State) : State :=
  if s.csAsserted then
    { s with
      chain := freeChain s.draws s.chain.length
      draws := s.draws + deviceDraws * s.chain.length }
  else s

/-- A step with `rst` asserted: every block register takes its reset value at once, no event is emitted, and a running
command is abandoned (R166, R169). -/
def blockReset (s : State) : State :=
  { chainOnReset s with
    chainLen := s.params.chainLenReset
    status := .ok
    result := 0x00
    busy := false
    csAsserted := false
    pending := []
    pendStatus := .ok
    pendResult := 0x00 }

/-- A word that decodes to Illegal: IllegalCommand, with no event and nothing else changed
(spec/60_exceptions.md R147). -/
def acceptIllegal (s : State) : State := accept (Reply.raise s .illegalCommand) s

/-- A command with a device operand: InvalidDevice and no event if the device is not 1..N, and otherwise its events
(spec/40_chain_primitives.md R103, spec/60_exceptions.md R148). -/
def replyOnDevice (s : State) (dev : Byte) (evs : List BusEvent) : Reply :=
  if validDev dev s.chainLen then Reply.play s evs else Reply.raise s .invalidDevice

/-- A command with a digit and a device operand: the digit is checked before the device
(spec/42_digit_buffer_ops.md R131; spec/90_conflicts.md C2). -/
def replyOnDigit (s : State) (dev digit : Byte) (evs : RegName → List BusEvent) : Reply :=
  match digitReg digit with
  | none => Reply.raise s .invalidDigit
  | some r => replyOnDevice s dev (evs r)

/-- The addressed frame of a register write in the state at acceptance: N and REG_ADDR as they stand
(spec/40_chain_primitives.md R101, R110). -/
def State.addrFrame (s : State) (dev : Byte) (r : RegName) (v : Byte) : List BusEvent :=
  Machine.addrFrame s.chainLen dev (s.params.regAddr.addr r) v

/-- The broadcast frames of a register write in the state at acceptance (R102, R110). -/
def State.bcastFrames (s : State) (r : RegName) (v : Byte) : List BusEvent :=
  Machine.bcastFrames s.chainLen (s.params.regAddr.addr r) v

/-- The settle delay with the state's `T_SETTLE_US` (spec/41_configuration_ops.md R113). -/
def State.settle (s : State) : List BusEvent := Machine.settle s.params

end Sys2Proof.Machine
end

