-- ==== Sys2Proof/Machine/ChainPrimitives.lean ====
section
/-! DEFINITION. Machine/ChainPrimitives.lean: ADDRESSED_WRITE and BROADCAST_WRITE
(spec/40_chain_primitives.md §2). -/

namespace Sys2Proof.Machine

/-- ADDRESSED_WRITE dev, reg, val (R104). -/
def execAddressedWrite (dev : Byte) (reg : RegName) (val : Byte) (s : State) :
    Host.Outcome State Fault Refusal :=
  .next (accept (replyOnDevice s dev (s.addrFrame dev reg val)) s)

/-- BROADCAST_WRITE reg, val (R105). -/
def execBroadcastWrite (reg : RegName) (val : Byte) (s : State) : Host.Outcome State Fault Refusal :=
  .next (accept (Reply.play s (s.bcastFrames reg val)) s)

end Sys2Proof.Machine
end

