-- ==== Sys2Proof/Machine/Configuration.lean ====
section
/-! DEFINITION. Machine/Configuration.lean: the register and configuration commands
(spec/41_configuration_ops.md §2 to §4). -/

namespace Sys2Proof.Machine

/-- CONFIGURE dev, dm, in, sl: three addressed frames, DECODE_MODE, INTENSITY, SCAN_LIMIT, a settle delay between
consecutive ones (R114). -/
def execConfigure (dev dm : Byte) (inten : BitVec 4) (sl : BitVec 3) (s : State) :
    Host.Outcome State Fault Refusal :=
  .next (accept (replyOnDevice s dev
    (s.addrFrame dev .decodeMode dm
      ++ s.settle ++ s.addrFrame dev .intensity (intensityByte inten)
      ++ s.settle ++ s.addrFrame dev .scanLimit (scanLimitByte sl))) s)

/-- CONFIGURE_ALL dm, in, sl: three broadcasts, a settle delay between consecutive ones (R115). -/
def execConfigureAll (dm : Byte) (inten : BitVec 4) (sl : BitVec 3) (s : State) :
    Host.Outcome State Fault Refusal :=
  .next (accept (Reply.play s
    (s.bcastFrames .decodeMode dm
      ++ s.settle ++ s.bcastFrames .intensity (intensityByte inten)
      ++ s.settle ++ s.bcastFrames .scanLimit (scanLimitByte sl))) s)

/-- ENABLE dev: addressed write of SHUTDOWN = 1 (R116). -/
def execEnable (dev : Byte) (s : State) : Host.Outcome State Fault Refusal :=
  .next (accept (replyOnDevice s dev (s.addrFrame dev .shutdown 0x01)) s)

/-- DISABLE dev: addressed write of SHUTDOWN = 0 (R117). -/
def execDisable (dev : Byte) (s : State) : Host.Outcome State Fault Refusal :=
  .next (accept (replyOnDevice s dev (s.addrFrame dev .shutdown 0x00)) s)

/-- ENABLE_ALL: broadcast of SHUTDOWN = 1 (R118). -/
def execEnableAll (s : State) : Host.Outcome State Fault Refusal :=
  .next (accept (Reply.play s (s.bcastFrames .shutdown 0x01)) s)

/-- DISABLE_ALL: broadcast of SHUTDOWN = 0 (R119). -/
def execDisableAll (s : State) : Host.Outcome State Fault Refusal :=
  .next (accept (Reply.play s (s.bcastFrames .shutdown 0x00)) s)

/-- SET_TEST_MODE: broadcast of DISPLAY_TEST = 1 (R120). -/
def execSetTestMode (s : State) : Host.Outcome State Fault Refusal :=
  .next (accept (Reply.play s (s.bcastFrames .displayTest 0x01)) s)

/-- CLEAR_TEST_MODE: broadcast of DISPLAY_TEST = 0 (R121). -/
def execClearTestMode (s : State) : Host.Outcome State Fault Refusal :=
  .next (accept (Reply.play s (s.bcastFrames .displayTest 0x00)) s)

/-- SET_CHAIN_LENGTH n: rejects 0 with InvalidDevice, otherwise sets CHAIN_LEN and returns it in RESULT; no event
(R122). -/
def execSetChainLength (n : Byte) (s : State) : Host.Outcome State Fault Refusal :=
  if n = 0 then .next (accept (Reply.raise s .invalidDevice) s)
  else .next (accept { status := .ok, result := n, events := [], chainLen := n } s)

end Sys2Proof.Machine
end

