-- ==== Sys2Proof/Machine/DigitBuffer.lean ====
section
/-! DEFINITION. Machine/DigitBuffer.lean: the digit buffer commands (spec/42_digit_buffer_ops.md §2 to §4). -/

namespace Sys2Proof.Machine

/-- WRITE_DIGIT dev, digit, val (R132). -/
def execWriteDigit (dev digit val : Byte) (s : State) : Host.Outcome State Fault Refusal :=
  .next (accept (replyOnDigit s dev digit (fun r => s.addrFrame dev r val)) s)

/-- CLEAR_DIGIT dev, digit: WRITE_DIGIT's addressing with value 0 (R133). -/
def execClearDigit (dev digit : Byte) (s : State) : Host.Outcome State Fault Refusal :=
  .next (accept (replyOnDigit s dev digit (fun r => s.addrFrame dev r 0x00)) s)

/-- FILL_DEVICE dev: eight addressed writes of 0xFF, digits 1..8 (R134). -/
def execFillDevice (dev : Byte) (s : State) : Host.Outcome State Fault Refusal :=
  .next (accept (replyOnDevice s dev (digitFrames s.params.regAddr s.chainLen dev 0xFF)) s)

/-- CLEAR_DEVICE dev: eight addressed writes of 0x00 (R135). -/
def execClearDevice (dev : Byte) (s : State) : Host.Outcome State Fault Refusal :=
  .next (accept (replyOnDevice s dev (digitFrames s.params.regAddr s.chainLen dev 0x00)) s)

/-- FILL_ALL: the eight writes of 0xFF to every device, device-major (R136). -/
def execFillAll (s : State) : Host.Outcome State Fault Refusal :=
  .next (accept (Reply.play s (allDigitFrames s.params.regAddr s.chainLen 0xFF)) s)

/-- CLEAR_ALL: the eight writes of 0x00 to every device, device-major (R137). -/
def execClearAll (s : State) : Host.Outcome State Fault Refusal :=
  .next (accept (Reply.play s (allDigitFrames s.params.regAddr s.chainLen 0x00)) s)

end Sys2Proof.Machine
end

