-- ==== Sys2Proof/Machine/Dispatch.lean ====
section
/-! DEFINITION. Machine/Dispatch.lean: one arm per command: the accept step's `exec(S, w)` of a decoded word and what
the sequencer does with its answer (spec/00_scope.md R13, spec/10_state.md R35). -/

namespace Sys2Proof.Machine

def exec (i : Instr) (s : State) : Host.Outcome State Fault Refusal :=
  match i with
  | .addressedWrite dev reg val => Sys2Proof.Machine.execAddressedWrite dev reg val s
  | .broadcastWrite reg val => Sys2Proof.Machine.execBroadcastWrite reg val s
  | .configure dev dm inten sl => Sys2Proof.Machine.execConfigure dev dm inten sl s
  | .configureAll dm inten sl => Sys2Proof.Machine.execConfigureAll dm inten sl s
  | .enable dev => Sys2Proof.Machine.execEnable dev s
  | .disable dev => Sys2Proof.Machine.execDisable dev s
  | .enableAll => Sys2Proof.Machine.execEnableAll s
  | .disableAll => Sys2Proof.Machine.execDisableAll s
  | .setTestMode => Sys2Proof.Machine.execSetTestMode s
  | .clearTestMode => Sys2Proof.Machine.execClearTestMode s
  | .writeDigit dev digit val => Sys2Proof.Machine.execWriteDigit dev digit val s
  | .clearDigit dev digit => Sys2Proof.Machine.execClearDigit dev digit s
  | .fillDevice dev => Sys2Proof.Machine.execFillDevice dev s
  | .clearDevice dev => Sys2Proof.Machine.execClearDevice dev s
  | .fillAll => Sys2Proof.Machine.execFillAll s
  | .clearAll => Sys2Proof.Machine.execClearAll s
  | .setChainLength n => Sys2Proof.Machine.execSetChainLength n s

end Sys2Proof.Machine
end

