-- ==== Sys2Proof/Machine/Ports.lean ====
section
/-! DEFINITION. Machine/Ports.lean: what the block drives: the host's ready line and status port
(spec/10_state.md R31, R32), the transport request (R33, R34) and the chip-select pin (R29, R33). Each is a function of
the state; reading one changes nothing (R31). -/

namespace Sys2Proof.Machine

/-- `cmd_ready = not BUSY` (R32). -/
def State.cmdReady (s : State) : Bool := !s.busy

/-- `cs_n = not CS_ASSERTED` (R29, R33). -/
def State.csN (s : State) : Bool := !s.csAsserted

/-- `ev`, the presented event: the head of PENDING while the block is BUSY (R34). -/
def State.presented (s : State) : Option BusEvent := if s.busy then s.pending.head? else none

/-- `ev_valid` (R33). -/
def State.evValid (s : State) : Bool := s.presented.isSome

/-- What the host reads on the status port: the four values of R31. -/
structure StatusPort where
  busy : Bool
  status : BitVec 2
  result : Byte
  chainLen : Byte
deriving DecidableEq, Repr

/-- `{BUSY, STATUS, RESULT, CHAIN_LEN}` (R31). While BUSY, STATUS and RESULT are the previous command's. -/
def State.statusPort (s : State) : StatusPort :=
  { busy := s.busy, status := s.status.code, result := s.result, chainLen := s.chainLen }

end Sys2Proof.Machine
end

