-- ==== Sys2Proof/Machine/Sequencer.lean ====
section
/-! DEFINITION. Machine/Sequencer.lean: what one step of the machine does with the pins of that step
(spec/10_state.md §4, spec/70_reset_and_hazards.md §1). -/

namespace Sys2Proof.Machine

/-- A word is accepted: decode it and run its command, or report IllegalCommand (R35, spec/60_exceptions.md R147). -/
def runWord (w : Word) (s : State) : Host.Outcome State Fault Refusal :=
  match decode w with
  | .ok i => exec i s
  | .error _ => .next (acceptIllegal s)

/-- One step with given pins. Reset wins over everything (R166, spec/60_exceptions.md R157); while BUSY the only other
thing that can happen is the acknowledgement of the presented event (R36, R38), and without it the block waits, for
ever if need be (R34, spec/60_exceptions.md R152); while idle it is the acceptance of an offered word (R35). -/
def stepPins (p : Pins) (s : State) : Host.Outcome State Fault Refusal :=
  if p.rst then .next (blockReset s)
  else if s.busy then
    if p.evAck then .next (emitHead s) else .next s
  else
    if p.cmdValid then runWord p.cmdWord s else .next s

/-- The pins of the next step leave the schedule. -/
def State.takePins (s : State) : State := { s with inputs := s.inputs.tail }

/-- The pins of the next step: the head of the schedule, and every pin low once it is spent. -/
def State.nextPins (s : State) : Pins := s.inputs.headD Pins.quiet

/-- The state in which the block is idle: what the acceptance of a word needs (R35: `BUSY = 0`), with the sequencer's
registers as they are whenever BUSY = 0 (R30, R39). An idle state is left as it is. -/
def State.idled (s : State) : State :=
  { s with busy := false, csAsserted := false, pending := [], pendStatus := .ok, pendResult := 0x00 }

end Sys2Proof.Machine
end

