-- ==== Sys2Proof/Machine/Step.lean ====
section
/-! DEFINITION. Machine/Step.lean: the one step of the machine, and how an instruction is put where the next step takes
it from. -/

namespace Sys2Proof.Machine

/-- One step: the block, with the pins of this step. -/
def step (s : State) : Host.Outcome State Fault Refusal := stepPins s.nextPins s.takePins

/-- The instruction whose bits are `w` where the next step takes its instruction from: the host offers it on the
command port in the very next step, to an idle block (the block fetches from no memory,
spec/20_memory.md R46; notes/assumptions/2.md). -/
def State.withFetchWord (s : State) (nbits w : Nat) : State :=
  { s.idled with inputs := Pins.command (BitVec.ofNat 32 (w % 2 ^ nbits)) :: s.inputs }

end Sys2Proof.Machine
end

