-- ==== Sys2Proof/Machine/Assembler.lean ====
section
/-! DEFINITION. Machine/Assembler.lean: the assembler of spec/30_encoding.md §6: a line of text to a written command
(R90), a written command to an `Instr` (R91, R92), and on to its word (R84). The block itself never sees text. -/

namespace Sys2Proof.Machine

/-- Why the assembler refuses a line. -/
inductive AsmError where
  /-- an operand's text is neither a number nor a name, or a place between commas is empty (R90) -/
  | badOperand
  /-- the mnemonic is none of the 17 (R90, R91) -/
  | unknownMnemonic
  /-- the operands do not fit the mnemonic's places (R91, R92) -/
  | operandsDoNotFit
deriving DecidableEq, Repr

/-- A space or a tab. -/
def isBlank (c : Char) : Bool := c == ' ' || c == '\t'

/-- The characters without blanks at either end. -/
def trimBlanks (cs : List Char) : List Char :=
  ((cs.dropWhile isBlank).reverse.dropWhile isBlank).reverse

/-- The line without its comment: `;` starts one (R90). -/
def stripComment (cs : List Char) : List Char := cs.takeWhile (fun c => c != ';')

/-- The pieces between commas. -/
def splitCommas : List Char → List (List Char)
  | [] => [[]]
  | c :: cs =>
    match splitCommas cs with
    | [] => [[c]]
    | piece :: pieces => if c == ',' then [] :: piece :: pieces else (c :: piece) :: pieces

/-- The value of a decimal or hexadecimal digit, if it is one below the base. -/
def digitValue (base : Nat) (c : Char) : Option Nat :=
  let v := if '0' ≤ c ∧ c ≤ '9' then some (c.toNat - '0'.toNat)
    else if 'a' ≤ c ∧ c ≤ 'f' then some (c.toNat - 'a'.toNat + 10)
    else if 'A' ≤ c ∧ c ≤ 'F' then some (c.toNat - 'A'.toNat + 10)
    else none
  v.filter (fun n => decide (n < base))

/-- The number a list of digits spells in a base, on from `acc`. -/
def readDigits (base acc : Nat) : List Char → Option Nat
  | [] => some acc
  | c :: cs =>
    match digitValue base c with
    | some v => readDigits base (acc * base + v) cs
    | none => none

/-- A number: decimal, or hexadecimal with `0x` (R90). -/
def readNumber : List Char → Option Nat
  | [] => none
  | '0' :: 'x' :: c :: cs => readDigits 16 0 (c :: cs)
  | c :: cs => readDigits 10 0 (c :: cs)

/-- One operand: what begins with a digit is a number, anything else without a blank inside is a name (R90). -/
def readOperand (cs : List Char) : Except AsmError AsmOperand :=
  match trimBlanks cs with
  | [] => .error .badOperand
  | c :: rest =>
    if '0' ≤ c ∧ c ≤ '9' then
      match readNumber (c :: rest) with
      | some n => .ok (.num n)
      | none => .error .badOperand
    else if rest.any isBlank then .error .badOperand
    else .ok (.name (String.ofList (c :: rest)))

/-- The operands of a line, in order; the first one that is no operand is the error. -/
def readOperands : List (List Char) → Except AsmError (List AsmOperand)
  | [] => .ok []
  | piece :: pieces =>
    match readOperand piece with
    | .error e => .error e
    | .ok o =>
      match readOperands pieces with
      | .error e => .error e
      | .ok os => .ok (o :: os)

/-- A line of text as a written command: `MNEMONIC operand, operand, ...` (R90); none for a line that holds nothing but
blanks and a comment. -/
def readLine (cs : List Char) : Except AsmError (Option AsmLine) :=
  match trimBlanks (stripComment cs) with
  | [] => .ok none
  | c :: body =>
    let mnemonic := String.ofList ((c :: body).takeWhile (fun x => !isBlank x))
    match trimBlanks ((c :: body).dropWhile (fun x => !isBlank x)) with
    | [] => .ok (some { mnemonic := mnemonic, operands := [] })
    | d :: rest =>
      match readOperands (splitCommas (d :: rest)) with
      | .ok os => .ok (some { mnemonic := mnemonic, operands := os })
      | .error e => .error e

/-- The register name an assembler spelling stands for (R90). -/
def regOfSpelling (s : String) : Option RegName := RegName.all[RegName.spellings.idxOf s]?

/-- The command of a mnemonic and operands that fit its places (R91's table of fields). -/
def buildInstr : String → List AsmOperand → Option Instr
  | "ADDRESSED_WRITE", [.num dev, .name r, .num val] =>
    (regOfSpelling r).map (fun reg => .addressedWrite (.ofNat 8 dev) reg (.ofNat 8 val))
  | "BROADCAST_WRITE", [.name r, .num val] =>
    (regOfSpelling r).map (fun reg => .broadcastWrite reg (.ofNat 8 val))
  | "CONFIGURE", [.num dev, .num dm, .num inten, .num sl] =>
    some (.configure (.ofNat 8 dev) (.ofNat 8 dm) (.ofNat 4 inten) (.ofNat 3 sl))
  | "CONFIGURE_ALL", [.num dm, .num inten, .num sl] =>
    some (.configureAll (.ofNat 8 dm) (.ofNat 4 inten) (.ofNat 3 sl))
  | "ENABLE", [.num dev] => some (.enable (.ofNat 8 dev))
  | "DISABLE", [.num dev] => some (.disable (.ofNat 8 dev))
  | "ENABLE_ALL", [] => some .enableAll
  | "DISABLE_ALL", [] => some .disableAll
  | "SET_TEST_MODE", [] => some .setTestMode
  | "CLEAR_TEST_MODE", [] => some .clearTestMode
  | "WRITE_DIGIT", [.num dev, .num digit, .num val] =>
    some (.writeDigit (.ofNat 8 dev) (.ofNat 8 digit) (.ofNat 8 val))
  | "CLEAR_DIGIT", [.num dev, .num digit] => some (.clearDigit (.ofNat 8 dev) (.ofNat 8 digit))
  | "FILL_DEVICE", [.num dev] => some (.fillDevice (.ofNat 8 dev))
  | "CLEAR_DEVICE", [.num dev] => some (.clearDevice (.ofNat 8 dev))
  | "FILL_ALL", [] => some .fillAll
  | "CLEAR_ALL", [] => some .clearAll
  | "SET_CHAIN_LENGTH", [.num n] => some (.setChainLength (.ofNat 8 n))
  | _, _ => none

/-- A written command to its `Instr`, or the reason the assembler refuses it (R91, R92). -/
def assemble (l : AsmLine) : Except AsmError Instr :=
  match operandSlots l.mnemonic with
  | none => .error .unknownMnemonic
  | some slots =>
    if slotsAccept slots l.operands then
      match buildInstr l.mnemonic l.operands with
      | some i => .ok i
      | none => .error .operandsDoNotFit
    else .error .operandsDoNotFit

/-- A line of text to its command word: none for a blank line, the reason where the assembler refuses (R90 to R92). -/
def assembleLine (text : String) : Except AsmError (Option Word) :=
  match readLine text.toList with
  | .error e => .error e
  | .ok none => .ok none
  | .ok (some l) =>
    match assemble l with
    | .error e => .error e
    | .ok i => .ok (some (encode i))

end Sys2Proof.Machine
end

