-- ==== Sys2Proof/Machine/Phy.lean ====
section
/-! DEFINITION. Machine/Phy.lean: the optional bit-level layer under the bus events (spec/20_memory.md R57). No rule of
the byte-level model depends on it and `step` does not call it: it says what the wire does for a sequence of
acknowledged events, in order. The lengths of the three waits are OPEN in the spec (R7, R57): they stand where R57 puts
them and last at least the constants of Config.lean, of which nothing is known. -/

namespace Sys2Proof.Machine

/-- The waits whose lengths are OPEN parameters (R57). -/
inductive PhyWait where
  /-- `PHY_T_CSS`: from `cs_n` falling to the first clock -/
  | csSetup
  /-- `PHY_T_CSH`: from the last clock to `cs_n` rising -/
  | csHold
  /-- `PHY_T_CSW`: `cs_n` high before the next frame -/
  | csHigh
deriving DecidableEq, Repr

/-- How long a wait lasts at least: one of the OPEN parameters, a positive whole number of a unit that is not named
(DESIGN CHOICE, notes/assumptions/13.md). -/
def PhyWait.atLeast : PhyWait → ℕ+
  | .csSetup => Config.phyTCss
  | .csHold => Config.phyTCsh
  | .csHigh => Config.phyTCsw

/-- One thing that happens on the three wires. -/
inductive WireOp where
  /-- the `cs_n` pin goes to a level -/
  | csN (level : Bool)
  /-- the data line takes a bit -/
  | data (bit : Bool)
  /-- the clock goes to a level -/
  | clock (level : Bool)
  /-- at least the wait's time, `PhyWait.atLeast`, passes -/
  | wait (w : PhyWait)
deriving DecidableEq, Repr

/-- Clock polarity: the level at which the clock idles, low in modes 0 and 1. Mode 0's is R57's; the numbering of the
other modes is the SPI convention (PRESUMED, notes/assumptions/13.md). -/
def idleLevel : SpiMode → Bool
  | .mode0 => false
  | .mode1 => false
  | .mode2 => true
  | .mode3 => true

/-- Clock phase: is data sampled on the first edge of a cycle (`true`) or on the second? -/
def samplesFirstEdge : SpiMode → Bool
  | .mode0 => true
  | .mode1 => false
  | .mode2 => true
  | .mode3 => false

/-- The level the clock goes to at the edge on which data is sampled: rising in mode 0 (R57). -/
def sampleLevel (m : SpiMode) : Bool := xor (idleLevel m) (samplesFirstEdge m)

/-- The bits of a byte in the order they are sent: most significant first by default (R57, `PHY_BIT_ORDER`). -/
def bitsInOrder : BitOrder → Byte → List Bool
  | .msbFirst, b => [b[7], b[6], b[5], b[4], b[3], b[2], b[1], b[0]]
  | .lsbFirst, b => [b[0], b[1], b[2], b[3], b[4], b[5], b[6], b[7]]

/-- One clock cycle carrying one bit: the data line is stable at the sampling edge. -/
def bitCycle (m : SpiMode) (bit : Bool) : List WireOp :=
  if samplesFirstEdge m then [.data bit, .clock (!idleLevel m), .clock (idleLevel m)]
  else [.clock (!idleLevel m), .data bit, .clock (idleLevel m)]

/-- What the wire does for one bus event (R57): a byte is 8 clock cycles; `cs_n` falls before the first clock of a
frame and rises after the last; a settle delay is no wire activity. -/
def wireOps (p : Params) : BusEvent → List WireOp
  | .sel true => [.csN false, .wait .csSetup]
  | .sel false => [.wait .csHold, .csN true, .wait .csHigh]
  | .tx b => (bitsInOrder p.phyBitOrder b).flatMap (bitCycle p.phySpiMode)
  | .delay _ => []

/-- What the wire does for a sequence of events. -/
def wireTrace (p : Params) (evs : List BusEvent) : List WireOp := evs.flatMap (wireOps p)

end Sys2Proof.Machine
end

