-- ==== Sys2Proof/Safety.lean ====
section
/-! DEFINITION. Safety.lean: the terms claims about the machine are stated in: legal parameters, R91's table of written
commands, the chip-select discipline and the pair discipline of an event sequence, what a device register holds, the
frames written once more in the spec's wire-position form, the invariant every step keeps, and the run of one command to
its completion. -/

namespace Sys2Proof.Machine

/-! ### Legal parameters (spec/00_scope.md R7) -/

/-- `REG_ADDR` is injective on the 14 names (R7, spec/20_memory.md R50). -/
abbrev regMapInjective (m : RegMap) : Prop := (RegName.all.map m.addr).Nodup

/-- The 14 wire addresses differ in their low nibbles, so that every device decodes every register
(spec/20_memory.md R64). The default map has this. -/
abbrev regMapDecodable (m : RegMap) : Prop := (RegName.all.map (fun n => lowNibble (m.addr n))).Nodup

/-- The legal values of R7. -/
abbrev paramsLegal (p : Params) : Prop :=
  p.chainLenReset ≠ 0 ∧ 1 ≤ p.tSettleUs ∧ regMapInjective p.regAddr ∧ p.nPhys ≠ 0

/-! ### Written commands (spec/30_encoding.md R91, R92) -/

/-- The assembler's spelling of each register name, written out pair by pair (spec/20_memory.md R49, R90). -/
def spelledRegisters : List (String × RegName) :=
  [("NO_OP", .noOp), ("DIGIT_0", .digit0), ("DIGIT_1", .digit1), ("DIGIT_2", .digit2), ("DIGIT_3", .digit3),
   ("DIGIT_4", .digit4), ("DIGIT_5", .digit5), ("DIGIT_6", .digit6), ("DIGIT_7", .digit7),
   ("DECODE_MODE", .decodeMode), ("INTENSITY", .intensity), ("SCAN_LIMIT", .scanLimit), ("SHUTDOWN", .shutdown),
   ("DISPLAY_TEST", .displayTest)]

/-- R91's table and R92's ranges, row by row: the written command spells the command. It uses neither the table nor the
checks that the assembler and `AsmLine.wellFormed` share. -/
inductive Spells : AsmLine → Instr → Prop
  | addressedWrite {dev val : Nat} {s : String} {r : RegName} (hd : dev ≤ 255) (hr : (s, r) ∈ spelledRegisters)
      (hv : val ≤ 255) :
      Spells ⟨"ADDRESSED_WRITE", [.num dev, .name s, .num val]⟩ (.addressedWrite (.ofNat 8 dev) r (.ofNat 8 val))
  | broadcastWrite {val : Nat} {s : String} {r : RegName} (hr : (s, r) ∈ spelledRegisters) (hv : val ≤ 255) :
      Spells ⟨"BROADCAST_WRITE", [.name s, .num val]⟩ (.broadcastWrite r (.ofNat 8 val))
  | configure {dev dm inten sl : Nat} (hd : dev ≤ 255) (hm : dm ≤ 255) (hi : inten ≤ 15) (hs : sl ≤ 7) :
      Spells ⟨"CONFIGURE", [.num dev, .num dm, .num inten, .num sl]⟩
        (.configure (.ofNat 8 dev) (.ofNat 8 dm) (.ofNat 4 inten) (.ofNat 3 sl))
  | configureAll {dm inten sl : Nat} (hm : dm ≤ 255) (hi : inten ≤ 15) (hs : sl ≤ 7) :
      Spells ⟨"CONFIGURE_ALL", [.num dm, .num inten, .num sl]⟩
        (.configureAll (.ofNat 8 dm) (.ofNat 4 inten) (.ofNat 3 sl))
  | enable {dev : Nat} (hd : dev ≤ 255) : Spells ⟨"ENABLE", [.num dev]⟩ (.enable (.ofNat 8 dev))
  | disable {dev : Nat} (hd : dev ≤ 255) : Spells ⟨"DISABLE", [.num dev]⟩ (.disable (.ofNat 8 dev))
  | enableAll : Spells ⟨"ENABLE_ALL", []⟩ .enableAll
  | disableAll : Spells ⟨"DISABLE_ALL", []⟩ .disableAll
  | setTestMode : Spells ⟨"SET_TEST_MODE", []⟩ .setTestMode
  | clearTestMode : Spells ⟨"CLEAR_TEST_MODE", []⟩ .clearTestMode
  | writeDigit {dev digit val : Nat} (hd : dev ≤ 255) (hk : digit ≤ 255) (hv : val ≤ 255) :
      Spells ⟨"WRITE_DIGIT", [.num dev, .num digit, .num val]⟩
        (.writeDigit (.ofNat 8 dev) (.ofNat 8 digit) (.ofNat 8 val))
  | clearDigit {dev digit : Nat} (hd : dev ≤ 255) (hk : digit ≤ 255) :
      Spells ⟨"CLEAR_DIGIT", [.num dev, .num digit]⟩ (.clearDigit (.ofNat 8 dev) (.ofNat 8 digit))
  | fillDevice {dev : Nat} (hd : dev ≤ 255) : Spells ⟨"FILL_DEVICE", [.num dev]⟩ (.fillDevice (.ofNat 8 dev))
  | clearDevice {dev : Nat} (hd : dev ≤ 255) : Spells ⟨"CLEAR_DEVICE", [.num dev]⟩ (.clearDevice (.ofNat 8 dev))
  | fillAll : Spells ⟨"FILL_ALL", []⟩ .fillAll
  | clearAll : Spells ⟨"CLEAR_ALL", []⟩ .clearAll
  | setChainLength {n : Nat} (hn : n ≤ 255) : Spells ⟨"SET_CHAIN_LENGTH", [.num n]⟩ (.setChainLength (.ofNat 8 n))

/-! ### Event sequences (spec/40_chain_primitives.md R108, spec/20_memory.md R55) -/

/-- The chip-select discipline R108 of a sequence that begins with the line asserted (`true`) or deasserted: every
`Tx` inside a frame, `Sel(true)` and `Sel(false)` alternating, no `Delay` inside a frame, the line deasserted at the
end. -/
def csDiscipline : Bool → List BusEvent → Bool
  | false, [] => true
  | true, [] => false
  | false, .sel true :: es => csDiscipline true es
  | true, .sel false :: es => csDiscipline false es
  | true, .tx _ :: es => csDiscipline true es
  | false, .delay _ :: es => csDiscipline false es
  | _, _ => false

/-- Every frame holds a whole number of pairs (R55): between `Sel(true)` and `Sel(false)` the number of bytes is even.
The flag says whether the bytes since the last `Sel` are odd in number. -/
def wholePairs : Bool → List BusEvent → Bool
  | odd, [] => !odd
  | odd, .tx _ :: es => wholePairs (!odd) es
  | odd, .sel _ :: es => !odd && wholePairs false es
  | odd, .delay _ :: es => wholePairs odd es

/-- The bytes a sequence transmits, in order. -/
def txBytes : List BusEvent → List Byte
  | [] => []
  | .tx b :: es => b :: txBytes es
  | _ :: es => txBytes es

/-- The level a sequence leaves the chip-select line at, from the level it found. -/
def csAfter (cs : Bool) (evs : List BusEvent) : Bool :=
  evs.foldl (fun c e => match e with | .sel b => b | _ => c) cs

/-- The delays of a sequence, in order. -/
def delaysOf : List BusEvent → List Nat
  | [] => []
  | .delay n :: es => n :: delaysOf es
  | _ :: es => delaysOf es

/-! ### Frames in wire-position form (spec/40_chain_primitives.md R107) -/

/-- One frame of `n` pairs, counted from the first pair sent: pair number `i` is `(a, v)` when `i = n - d`, and
`(0x00, 0x00)` otherwise (R107). -/
def wireFrame (n d : Nat) (a v : Byte) : List BusEvent :=
  .sel true
    :: (List.range n).flatMap (fun i => if i = n - d then [.tx a, .tx v] else [.tx 0x00, .tx 0x00])
    ++ [.sel false]

/-- `n` frames, each of the one pair `(a, v)` (R102). -/
def onePairFrames (n : Nat) (a v : Byte) : List BusEvent :=
  (List.replicate n [BusEvent.sel true, .tx a, .tx v, .sel false]).flatten

/-- The eight digit frames of device `d`, digit `k + 1` the `k`-th of them (R134). -/
def wireDigitFrames (m : RegMap) (n d : Nat) (v : Byte) : List BusEvent :=
  (List.range 8).flatMap (fun k => wireFrame n d (((RegName.storage)[k]?.map m.addr).getD 0x00) v)

/-! ### What the devices hold (spec/20_memory.md R45, R48) -/

/-- The device register space at `(j, name)`: the byte device `j` (1-based) holds in a register; none where there is no
such device, and none for `NO_OP`, which is not storage (R45). For claims only: no command reads it (R48). -/
def State.devReg (s : State) (j : Nat) (n : RegName) : Option Byte :=
  match j with
  | 0 => none
  | k + 1 => (s.chain[k]?).bind (fun dev => (dev.regs.read n).map Cell.value)

/-- The shift register of device `j` as a pair of bytes `(A_j, D_j)`. -/
def State.shiftReg (s : State) (j : Nat) : Option (Byte × Byte) :=
  match j with
  | 0 => none
  | k + 1 => (s.chain[k]?).map (fun dev => (dev.a.value, dev.d.value))

/-! ### The invariant of every step -/

/-- What holds in every reachable state: CHAIN_LEN is not 0 (spec/10_state.md R25); the parameters are legal and the
number of devices is N_PHYS; while BUSY = 0 the sequencer is empty and chip-select is deasserted (R30, R39); while
BUSY = 1 something is pending, it will complete with OK (R37), and it keeps the chip-select discipline from the line's
present level (R108). -/
structure State.Inv (s : State) : Prop where
  chainLen_ne_zero : s.chainLen ≠ 0
  params_legal : paramsLegal s.params
  chain_length : s.chain.length = s.params.nPhys.toNat
  idle : s.busy = false → s.pending = [] ∧ s.pendStatus = .ok ∧ s.pendResult = 0x00 ∧ s.csAsserted = false
  running : s.busy = true → s.pending ≠ [] ∧ s.pendStatus = .ok ∧ csDiscipline s.csAsserted s.pending = true

/-! ### Runs -/

/-- The transport acknowledges every pending event, one after the other. -/
def drain (s : State) : State := s.pending.foldl (fun t _ => emitHead t) s

/-- The state after a command: accepted, and every event it makes pending acknowledged. `none` if the command stops. -/
def afterCommand (i : Instr) (s : State) : Option State :=
  match exec i s with
  | .next t => some (drain t)
  | _ => none

/-- The state after a sequence of commands, each run to its completion before the next is accepted (R182). -/
def afterCommands : List Instr → State → Option State
  | [], s => some s
  | i :: is, s => (afterCommand i s).bind (afterCommands is)

/-- The machine itself running one command to its completion: the host offers the command's word, and the transport
acknowledges one event in each of the next `n` steps. -/
def commandRun (i : Instr) (n : Nat) (s : State) : Host.Outcome State Fault Refusal :=
  Sys2Proof.core.run (n + 1) { s with inputs := Pins.command (encode i) :: List.replicate n Pins.ack }

/-- The bits a receiver takes from the data line on the edges of the clock to a level. The Booleans are the levels the
clock and the data line start at. -/
def sampledBits (sampleLevel : Bool) : Bool → Bool → List WireOp → List Bool
  | _, _, [] => []
  | clk, _, .data b :: ops => sampledBits sampleLevel clk b ops
  | clk, d, .clock c :: ops =>
    if c = sampleLevel ∧ c ≠ clk then d :: sampledBits sampleLevel c d ops else sampledBits sampleLevel c d ops
  | clk, d, .csN _ :: ops => sampledBits sampleLevel clk d ops
  | clk, d, .wait _ :: ops => sampledBits sampleLevel clk d ops

/-- The clock does not move while `cs_n` is high (R57). The first Boolean is the level of `cs_n` at the start. -/
def clockOnlyWhileSelected : Bool → List WireOp → Bool
  | _, [] => true
  | _, .csN level :: ops => clockOnlyWhileSelected level ops
  | csN, .clock _ :: ops => !csN && clockOnlyWhileSelected csN ops
  | csN, _ :: ops => clockOnlyWhileSelected csN ops

end Sys2Proof.Machine
end

