-- ==== Sys2Proof/Certificates/Slice0/Obligations.lean ====
section
/-! DEFINITION. Certificates/Slice0/Obligations.lean: the statements for the provers. Each is a claim about the machine
of Machine/ in the terms of Safety.lean; none is about a program. `wireFrame`, `onePairFrames` and `wireDigitFrames` are
the spec's frames in wire-position form (spec/40_chain_primitives.md R107), not the functions the meanings call. Where a
statement rests on a decision the spec marks as its own (D1 to D31) or on the chain reference model (general knowledge),
its docstring says so; the model adopts these as a whole in notes/assumptions/6.md and notes/assumptions/18.md. -/

open Sys2Proof Sys2Proof.Machine

/-! ### Encoding (spec/30_encoding.md) -/

/-- Decoding the word of any command gives the command back, every operand at every value its field admits. The
encoding is the spec's own (its decisions D3, D4, D15). -/
def Obligations.DecodeOfEncode : Prop := ∀ i : Instr, decode (encode i) = .ok i

/-- Each command has one word only: a word that decodes to it is its encoding. The encoding is the spec's own (D3, D8). -/
def Obligations.EncodeOfDecode : Prop := ∀ (w : Word) (i : Instr), decode w = .ok i → encode i = w

/-- A word is a command exactly when it fits a row of the opcode map, R84's match and mask written out, and where the
row is ADDRESSED_WRITE or BROADCAST_WRITE its REG field is not 14 or 15. The encoding is the spec's own (D3, D8). -/
def Obligations.DecodeAcceptsExactlyTheOpcodeMap : Prop :=
  ∀ w : Word,
    (∃ i, decode w = .ok i) ↔
      (w &&& 0xFF00F000#32 = 0x08000000#32 ∧ (w.extractLsb' 8 4).toNat ≤ 13)
        ∨ (w &&& 0xFFFFF000#32 = 0x10000000#32 ∧ (w.extractLsb' 8 4).toNat ≤ 13)
        ∨ w &&& 0xFF000080#32 = 0x18000000#32
        ∨ w &&& 0xFFFF0080#32 = 0x20000000#32
        ∨ w &&& 0xFF00FFFF#32 ∈ [0x28000000#32, 0x30000000#32, 0x68000000#32, 0x70000000#32]
        ∨ w ∈ [0x38000000#32, 0x40000000#32, 0x48000000#32, 0x50000000#32, 0x78000000#32, 0x80000000#32]
        ∨ w &&& 0xFF000000#32 = 0x58000000#32
        ∨ w &&& 0xFF0000FF#32 = 0x60000000#32
        ∨ w &&& 0xFFFFFF00#32 = 0x88000000#32

/-- A word that is no command is rejected by the right name: a reserved opcode, a reserved-zero bit set under a valid
opcode, or a reserved register code (R85, R86, R87; the spec's decision D8). -/
def Obligations.RejectedWordsAreNamed : Prop :=
  ∀ w : Word,
    ((w.extractLsb' 27 5 = 0#5 ∨ 0x12 ≤ (w.extractLsb' 27 5).toNat) → decode w = .error .reservedOpcode)
      ∧ (∀ row ∈ opcodeMap, w.extractLsb' 27 5 = row.pattern.extractLsb' 27 5 → w &&& row.mask ≠ row.pattern →
          decode w = .error .reservedBits)
      ∧ ((w &&& 0xFF00F000#32 = 0x08000000#32 ∨ w &&& 0xFFFFF000#32 = 0x10000000#32) →
          14 ≤ (w.extractLsb' 8 4).toNat → decode w = .error .reservedRegister)

/-- The spec's own example words: the 17 of R94 decode to the commands they stand for, and the 10 of R95 to none. -/
def Obligations.ExampleWordsDecode : Prop :=
  decode 0x08030A08#32 = .ok (.addressedWrite 3 .intensity 0x08)
    ∧ decode 0x10000D01#32 = .ok (.broadcastWrite .displayTest 1)
    ∧ decode 0x18020078#32 = .ok (.configure 2 0x00 8 7)
    ∧ decode 0x20000078#32 = .ok (.configureAll 0x00 8 7)
    ∧ decode 0x28010000#32 = .ok (.enable 1)
    ∧ decode 0x30010000#32 = .ok (.disable 1)
    ∧ decode 0x38000000#32 = .ok .enableAll
    ∧ decode 0x40000000#32 = .ok .disableAll
    ∧ decode 0x48000000#32 = .ok .setTestMode
    ∧ decode 0x50000000#32 = .ok .clearTestMode
    ∧ decode 0x580201FF#32 = .ok (.writeDigit 2 1 0xFF)
    ∧ decode 0x60020100#32 = .ok (.clearDigit 2 1)
    ∧ decode 0x68020000#32 = .ok (.fillDevice 2)
    ∧ decode 0x70020000#32 = .ok (.clearDevice 2)
    ∧ decode 0x78000000#32 = .ok .fillAll
    ∧ decode 0x80000000#32 = .ok .clearAll
    ∧ decode 0x88000003#32 = .ok (.setChainLength 3)
    ∧ ∀ w ∈ [0x00000000#32, 0x90000000#32, 0xF8000000#32, 0x29000000#32, 0x28010001#32, 0x60020101#32,
        0x08010E00#32, 0x10010D01#32, 0x20000088#32, 0x88000100#32], ∃ e, decode w = .error e

/-- The default wire addresses are R50's table (general knowledge in the spec's own words), and each REG code is the
register's position in the enumeration (R80; the spec's decision D4): the two differ for DISPLAY_TEST. -/
def Obligations.DefaultAddressesAndRegisterCodes : Prop :=
  RegName.all.map RegMap.default.addr = [0x00, 0x01, 0x02, 0x03, 0x04, 0x05, 0x06, 0x07, 0x08, 0x09, 0x0A, 0x0B, 0x0C, 0x0F]
    ∧ RegName.all.map RegName.code = [0, 1, 2, 3, 4, 5, 6, 7, 8, 9, 10, 11, 12, 13]
    ∧ (∀ m : RegMap, m.addr .noOp = 0x00)
    ∧ regMapInjective RegMap.default ∧ regMapDecodable RegMap.default

/-- The assembler builds a command from a written one exactly when R91's table, with R92's ranges written out row by row
(`Spells`), says that the written command spells it; and a written command is well formed exactly when it spells some
command (the spec's decision D28). -/
def Obligations.AssemblerAcceptsExactlyWellFormedLines : Prop :=
  ∀ l : AsmLine, (∀ i, assemble l = .ok i ↔ Spells l i) ∧ (l.wellFormed = true ↔ ∃ i, Spells l i)

/-! ### One step (spec/10_state.md §4, spec/70_reset_and_hazards.md §1) -/

/-- When an idle block is offered a word that decodes to a command, and reset is not asserted, the step is `exec` of
that command; the step adds only that the pins of the step are taken from the schedule. -/
def Obligations.StepRunsTheDecodedCommand : Prop :=
  ∀ (s : State) (i : Instr), s.nextPins.rst = false → s.nextPins.cmdValid = true → s.busy = false →
    decode s.nextPins.cmdWord = .ok i → step s = exec i { s with inputs := s.inputs.tail }

/-- The instruction that `withFetchWord` puts on the command port is the one the very next step runs, on the block made
idle (log entry 2). -/
def Obligations.FetchWordRunsItsInstruction : Prop :=
  ∀ (s : State) (i : Instr), step (s.withFetchWord 32 (encode i).toNat) = exec i s.idled

/-- A word that decodes to Illegal changes nothing but STATUS = 3 and RESULT = 0x00, emits nothing, and leaves the block
idle (R147; the spec's decision D8). -/
def Obligations.IllegalWordOnlyReportsIllegalCommand : Prop :=
  ∀ (s : State) (e : Illegal), s.nextPins.rst = false → s.nextPins.cmdValid = true → s.busy = false →
    decode s.nextPins.cmdWord = .error e →
    step s = .next { s with
      inputs := s.inputs.tail
      status := .illegalCommand
      result := 0x00
      completions := s.completions ++ [.illegalCommand] }

/-- While BUSY the command port is not read: whatever stands on it, the step does the same (R38, R70; the spec's
decisions D2, D29). A word that is held through the last acknowledgement is accepted in the step after it: neither lost
nor merged. -/
def Obligations.BusyBlockIgnoresTheCommandPort : Prop :=
  (∀ (s : State) (ack v v' : Bool) (w w' : Word) (rest : List Pins), s.busy = true →
      step { s with inputs := { rst := false, cmdValid := v, cmdWord := w, evAck := ack } :: rest }
        = step { s with inputs := { rst := false, cmdValid := v', cmdWord := w', evAck := ack } :: rest })
    ∧ (∀ (s : State) (e : BusEvent) (w : Word) (a : Bool) (i : Instr) (rest : List Pins),
        s.busy = true → s.pending = [e] → decode w = .ok i →
        s.inputs = { rst := false, cmdValid := true, cmdWord := w, evAck := true }
          :: { rst := false, cmdValid := true, cmdWord := w, evAck := a } :: rest →
        ∃ t, step s = .next t ∧ t.busy = false ∧ t.emitted = s.emitted ++ [e]
          ∧ step t = exec i { t with inputs := rest })

/-- A step in which nothing is enabled changes nothing but the schedule: a BUSY block without an acknowledgement holds
the presented event unchanged, for as long as that lasts, and an idle block without an offered word stays idle (R34,
R152; the spec's decision D18: the hang is kept). -/
def Obligations.NothingEnabledNothingChanges : Prop :=
  ∀ s : State, s.nextPins.rst = false →
    ((s.busy = true ∧ s.nextPins.evAck = false) ∨ (s.busy = false ∧ s.nextPins.cmdValid = false)) →
    step s = .next { s with inputs := s.inputs.tail }
      ∧ ({ s with inputs := s.inputs.tail } : State).presented = s.presented

/-- The emit step and completion (R36, R37, and R62 to R64 for the devices; the spec's decisions D12, D18, D20): the
acknowledged event takes effect on the line and on the devices, leaves PENDING and joins what was emitted; the last one
completes the command. -/
def Obligations.AcknowledgementEmitsTheHead : Prop :=
  ∀ (s : State) (e : BusEvent) (es : List BusEvent), s.nextPins.rst = false → s.nextPins.evAck = true →
    s.busy = true → s.pending = e :: es →
    ∃ t, step s = .next t
      ∧ t.pending = es ∧ t.emitted = s.emitted ++ [e] ∧ t.chainLen = s.chainLen ∧ t.params = s.params
      ∧ t.csAsserted = (match e with | .sel b => b | _ => s.csAsserted)
      ∧ t.chain = (match e with
          | .sel false => latchAll s.params.regAddr s.draws s.chain
          | .tx b => shiftIn (.known b) s.chain
          | _ => s.chain)
      ∧ (es ≠ [] → t.busy = true ∧ t.status = s.status ∧ t.result = s.result ∧ t.pendStatus = s.pendStatus
          ∧ t.pendResult = s.pendResult ∧ t.completions = s.completions)
      ∧ (es = [] → t.busy = false ∧ t.status = s.pendStatus ∧ t.result = s.pendResult ∧ t.pendStatus = .ok
          ∧ t.pendResult = 0x00 ∧ t.completions = s.completions ++ [s.pendStatus])

/-- CS_ASSERTED is the pin `cs_n` inverted, it is 0 after reset, and apart from reset only an acknowledged `Sel(b)`
changes it, and sets it to `b` (R29). -/
def Obligations.ChipSelectFollowsAcknowledgedSel : Prop :=
  (∀ s t : State, s.nextPins.rst = false → step s = .next t →
      t.csAsserted = (match s.busy && s.nextPins.evAck, s.pending with
        | true, .sel b :: _ => b
        | _, _ => s.csAsserted))
    ∧ (∀ s : State, s.csN = !s.csAsserted) ∧ State.reset.csAsserted = false

/-- A step with `rst` asserted puts every block register at its reset value, whatever the other pins are, emits no event
and reports no status (R166, R157; the spec's decision D25). -/
def Obligations.ResetReturnsEveryBlockRegister : Prop :=
  ∀ s : State, s.nextPins.rst = true →
    ∃ t, step s = .next t
      ∧ t.chainLen = s.params.chainLenReset ∧ t.status = .ok ∧ t.result = 0x00 ∧ t.busy = false
      ∧ t.csAsserted = false ∧ t.pending = [] ∧ t.pendStatus = .ok ∧ t.pendResult = 0x00
      ∧ t.emitted = s.emitted ∧ t.completions = s.completions ∧ t.inputs = s.inputs.tail ∧ t.params = s.params

/-- A reset outside a frame leaves the devices as they are; a reset in mid-frame leaves every byte of every device
UNKNOWN, behind draws not used before (R169, R170; the spec's decision D25; that the shift registers too are UNKNOWN is
the model's reading, log entry 8). -/
def Obligations.ResetTouchesDevicesOnlyInAFrame : Prop :=
  ∀ s t : State, s.nextPins.rst = true → step s = .next t →
    (s.csAsserted = false → t.chain = s.chain ∧ t.draws = s.draws)
      ∧ (s.csAsserted = true → t.chain.length = s.chain.length
          ∧ ∀ dev ∈ t.chain, ∀ c, (c = dev.a ∨ c = dev.d ∨ ∃ n, dev.regs.read n = some c) →
              ∃ k, s.draws ≤ k ∧ k < t.draws ∧ c = .unknown k)

/-- The state after reset: the register values of R23 and R42 (the spec's decisions D7, D10, D11, D12, D25), with the
default parameters (log entry 3); no event emitted and no status reported yet (the model's observation lists, log entry
9); every byte of the devices UNKNOWN (R65). -/
def Obligations.ResetStateHoldsTheResetValues : Prop :=
  State.reset.chainLen = 1 ∧ State.reset.status = .ok ∧ State.reset.status.code = 0 ∧ State.reset.result = 0x00
    ∧ State.reset.busy = false ∧ State.reset.csAsserted = false ∧ State.reset.pending = []
    ∧ State.reset.pendStatus = .ok ∧ State.reset.pendResult = 0x00
    ∧ State.reset.cmdReady = true ∧ State.reset.csN = true ∧ State.reset.evValid = false
    ∧ State.reset.statusPort = { busy := false, status := 0, result := 0x00, chainLen := 1 }
    ∧ State.reset.emitted = [] ∧ State.reset.completions = []
    ∧ (∀ dev ∈ State.reset.chain, ∀ c, (c = dev.a ∨ c = dev.d ∨ ∃ n, dev.regs.read n = some c) → ∃ k, c = .unknown k)

/-- The state after reset, and the power-on state with any legal parameters, meet the invariant. -/
def Obligations.PowerOnMeetsTheInvariant : Prop :=
  State.reset.Inv ∧ ∀ p : Params, paramsLegal p → (State.powerOn p).Inv

/-- Every step keeps the invariant: CHAIN_LEN is never 0 (R25), the parameters and the number of devices stay, an idle
block has an empty sequencer and a deasserted line (R30, R39), and a BUSY block has something pending that keeps the
chip-select discipline from the line's present level (R108) and completes with OK (R37). -/
def Obligations.StepKeepsTheInvariant : Prop :=
  ∀ s t : State, s.Inv → step s = .next t → t.Inv

/-- The machine never stops: every step of every state answers a next state (R153: there are no traps; R148: an error is
an ordinary completion; R152: a hang is a state that stays), and none changes a parameter or the number of devices. -/
def Obligations.StepNeverStopsAndKeepsParameters : Prop :=
  ∀ s : State, ∃ t, step s = .next t ∧ t.params = s.params ∧ t.chain.length = s.chain.length

/-- The devices are written only, never read (R48, R20): two states that differ in nothing but what the devices hold take
the same step, and after it differ in nothing else. -/
def Obligations.DeviceContentsAreNeverRead : Prop :=
  ∀ (s t : State) (devs : List Device) (k : Nat), step s = .next t →
    ∃ devs' k', step { s with chain := devs, draws := k } = .next { t with chain := devs', draws := k' }

/-- What was emitted is never taken back, and while a command runs without a reset, what it has emitted and what it has
still to emit together stay the same: no event is reordered, merged or dropped (R58, R38; the spec's decision D22). -/
def Obligations.EmissionKeepsTheOrderOfAcceptance : Prop :=
  ∀ s t : State, step s = .next t →
    s.emitted <+: t.emitted
      ∧ (s.nextPins.rst = false → s.busy = true → t.emitted ++ t.pending = s.emitted ++ s.pending)

/-- Apart from reset, only the acceptance of SET_CHAIN_LENGTH with n ≠ 0 changes CHAIN_LEN, and it sets it to n (R24,
R25). -/
def Obligations.OnlySetChainLengthChangesTheChainLength : Prop :=
  ∀ s t : State, s.nextPins.rst = false → step s = .next t → t.chainLen ≠ s.chainLen →
    ∃ n, n ≠ 0 ∧ s.busy = false ∧ s.nextPins.cmdValid = true
      ∧ decode s.nextPins.cmdWord = .ok (.setChainLength n) ∧ t.chainLen = n

/-- A device register changes only when the transport acknowledges a `Sel(false)`, or when the block is reset in
mid-frame (R48, R64, R170; the chain reference model is general knowledge, log entry 6). -/
def Obligations.DeviceRegistersChangeOnlyAtDeselection : Prop :=
  ∀ (s t : State) (j : Nat) (n : RegName), step s = .next t → t.devReg j n ≠ s.devReg j n →
    (s.nextPins.rst = false ∧ s.nextPins.evAck = true ∧ s.busy = true ∧ s.pending.head? = some (.sel false))
      ∨ (s.nextPins.rst = true ∧ s.csAsserted = true)

/-- The status. The codes are 0 OK, 1 InvalidDevice, 2 InvalidDigit and 3 IllegalCommand (R26, R146; the numbers are the
spec's decision D7). In every state the status port shows BUSY, that code of STATUS, RESULT and CHAIN_LEN, and the block
is ready for a command exactly when it is not BUSY (R31, R32; the spec's decisions D2, D26). Apart from reset, STATUS and
RESULT are written only at a completion, once for each, and the block is then idle (R26, R27, R154). -/
def Obligations.StatusIsWrittenOnlyAtCompletion : Prop :=
  (Status.ok.code = 0 ∧ Status.invalidDevice.code = 1 ∧ Status.invalidDigit.code = 2 ∧ Status.illegalCommand.code = 3)
    ∧ (∀ s : State,
        s.statusPort.busy = s.busy ∧ s.statusPort.result = s.result ∧ s.statusPort.chainLen = s.chainLen
          ∧ s.statusPort.status = (match s.status with
              | .ok => 0
              | .invalidDevice => 1
              | .invalidDigit => 2
              | .illegalCommand => 3)
          ∧ (s.cmdReady = true ↔ s.busy = false))
    ∧ ∀ s t : State, s.nextPins.rst = false → step s = .next t →
      (t.completions = s.completions ∧ t.status = s.status ∧ t.result = s.result)
        ∨ (t.completions = s.completions ++ [t.status] ∧ t.busy = false)

/-- A pending command, all of whose events are acknowledged, has emitted exactly them, in order, has left the line where
they leave it, has written its status and result, and the block is idle. -/
def Obligations.AcknowledgedCommandPlaysOut : Prop :=
  ∀ s : State, s.busy = true → s.pending ≠ [] →
    (drain s).emitted = s.emitted ++ s.pending ∧ (drain s).pending = [] ∧ (drain s).busy = false
      ∧ (drain s).csAsserted = csAfter s.csAsserted s.pending
      ∧ (drain s).status = s.pendStatus ∧ (drain s).result = s.pendResult
      ∧ (drain s).completions = s.completions ++ [s.pendStatus]
      ∧ (drain s).chainLen = s.chainLen ∧ (drain s).params = s.params ∧ (drain s).inputs = s.inputs

/-- Whatever the schedule, a command comes to the same end: in any steps without a reset in which the transport
acknowledges as many times as there are events, the last of them in the last step, the machine reaches the state in which
every event is acknowledged; how long the transport takes, and what stands on the command port meanwhile, changes
nothing (R34, R40, R58; the spec's decisions D18, D22). -/
def Obligations.EveryScheduleReachesTheSameCompletion : Prop :=
  ∀ (s : State) (ps : List Pins) (last : Pins), s.busy = true → s.pending ≠ [] →
    (∀ p ∈ ps ++ [last], p.rst = false) → last.evAck = true →
    ((ps ++ [last]).filter (fun p => p.evAck)).length = s.pending.length →
    Sys2Proof.core.run (ps.length + 1) { s with inputs := ps ++ [last] } = .next { drain s with inputs := [] }

/-- What an accepted word does to the block depends only on the word, on CHAIN_LEN and on the parameters (R22; the spec's
decision D12): from two idle states that agree on them, the same events become pending, to complete with the same status
and result, or, where there are none, the same status and result are written; and chip-select stays as it is. -/
def Obligations.CommandDependsOnlyOnWordAndChainLength : Prop :=
  ∀ (w : Word) (s s' t t' : State), s.chainLen = s'.chainLen → s.params = s'.params →
    s.busy = false → s'.busy = false → s.pending = [] → s'.pending = [] →
    runWord w s = .next t → runWord w s' = .next t' →
    t.pending = t'.pending ∧ t.busy = t'.busy ∧ t.chainLen = t'.chainLen
      ∧ (t.busy = true → t.pendStatus = t'.pendStatus ∧ t.pendResult = t'.pendResult)
      ∧ (t.busy = false → t.status = t'.status ∧ t.result = t'.result)
      ∧ t.csAsserted = s.csAsserted ∧ t'.csAsserted = s'.csAsserted

/-! ### Frames (spec/40_chain_primitives.md §1, §3) -/

/-- The addressed frame: one chip-select window, the chain positions from N down to 1, `(a, v)` at the position equal to
the device number and `(0x00, 0x00)` at every other one, register byte first (R101). -/
def Obligations.AddressedFrameGoesDownTheChain : Prop :=
  ∀ n d a v : Byte, 1 ≤ d.toNat → d.toNat ≤ n.toNat →
    addrFrame n d a v
      = BusEvent.sel true
        :: ((List.range n.toNat).map (fun i => n.toNat - i)).flatMap
            (fun p => if p = d.toNat then [.tx a, .tx v] else [.tx 0x00, .tx 0x00])
        ++ [.sel false]

/-- The target pair's wire position: of the exactly N pairs of the frame, pair number i, from the first sent, is `(a, v)`
when i = N - d, and `(0x00, 0x00)` otherwise (R107). -/
def Obligations.TargetPairStandsAtItsWirePosition : Prop :=
  ∀ n d a v : Byte, 1 ≤ d.toNat → d.toNat ≤ n.toNat →
    (txBytes (addrFrame n d a v)).length = 2 * n.toNat
      ∧ (∀ i, i < n.toNat →
          (txBytes (addrFrame n d a v))[2 * i]? = some (if i = n.toNat - d.toNat then a else 0x00)
            ∧ (txBytes (addrFrame n d a v))[2 * i + 1]? = some (if i = n.toNat - d.toNat then v else 0x00))
      ∧ addrFrame n d a v = BusEvent.sel true :: (txBytes (addrFrame n d a v)).map BusEvent.tx ++ [.sel false]

/-- A broadcast is N frames of one pair each, and at N = 1 it is the addressed frame (R102, R105; the spec's decision
D16, spec/90_conflicts.md C1). -/
def Obligations.BroadcastIsOneFramePerPosition : Prop :=
  (∀ n a v : Byte, bcastFrames n a v = onePairFrames n.toNat a v)
    ∧ ∀ a v : Byte, bcastFrames 1 a v = addrFrame 1 1 a v

/-- How many events the primitives have, and how many of them are bytes (R106). -/
def Obligations.PrimitiveEventCounts : Prop :=
  ∀ n d a v : Byte,
    (addrFrame n d a v).length = 2 * n.toNat + 2
      ∧ (txBytes (addrFrame n d a v)).length = 2 * n.toNat
      ∧ (bcastFrames n a v).length = 4 * n.toNat
      ∧ (txBytes (bcastFrames n a v)).length = 2 * n.toNat

/-- Every command's event sequence keeps the chip-select discipline, from a deasserted line to a deasserted line, and
every frame holds a whole number of pairs (R108, R55). -/
def Obligations.CommandsKeepTheChipSelectDiscipline : Prop :=
  ∀ (i : Instr) (s t : State), s.pending = [] → exec i s = .next t →
    csDiscipline false t.pending = true ∧ wholePairs false t.pending = true

/-- How many events each command has when no error stops it, none for SET_CHAIN_LENGTH (R123, R139); that a word that
reports an error has none (R123, R139); and that no command has more than 1,044,480 (R106). -/
def Obligations.CommandEventCounts : Prop :=
  (∀ (s t : State) (d k v dm : Byte) (r : RegName) (inten : BitVec 4) (sl : BitVec 3),
      1 ≤ d.toNat → d.toNat ≤ s.chainLen.toNat → 1 ≤ k.toNat → k.toNat ≤ 8 →
      (∀ i ∈ [Instr.addressedWrite d r v, .enable d, .disable d, .writeDigit d k v, .clearDigit d k],
          exec i s = .next t → t.pending.length = 2 * s.chainLen.toNat + 2)
        ∧ (∀ i ∈ [Instr.broadcastWrite r v, .enableAll, .disableAll, .setTestMode, .clearTestMode],
            exec i s = .next t → t.pending.length = 4 * s.chainLen.toNat)
        ∧ (exec (.configure d dm inten sl) s = .next t → t.pending.length = 6 * s.chainLen.toNat + 8)
        ∧ (exec (.configureAll dm inten sl) s = .next t → t.pending.length = 12 * s.chainLen.toNat + 2)
        ∧ (∀ i ∈ [Instr.fillDevice d, .clearDevice d],
            exec i s = .next t → t.pending.length = 16 * s.chainLen.toNat + 16)
        ∧ (∀ i ∈ [Instr.fillAll, .clearAll],
            exec i s = .next t → t.pending.length = 16 * s.chainLen.toNat ^ 2 + 16 * s.chainLen.toNat))
    ∧ (∀ (s t : State) (n : Byte), s.pending = [] → exec (.setChainLength n) s = .next t → t.pending.length = 0)
    ∧ (∀ (w : Word) (s t : State), s.busy = false → s.pending = [] → runWord w s = .next t →
        (if t.busy then t.pendStatus else t.status) ≠ .ok → t.pending.length = 0)
    ∧ (∀ (i : Instr) (s t : State), s.pending = [] → exec i s = .next t → t.pending.length ≤ 1044480)

/-! ### What each command does (spec/40_, 41_, 42_) -/

/-- ADDRESSED_WRITE to a device of the chain: accepted, its one addressed frame pending, to complete with OK and RESULT
0x00, and nothing else changed (R104). -/
def Obligations.AddressedWriteQueuesItsFrame : Prop :=
  ∀ (s : State) (d v : Byte) (r : RegName), 1 ≤ d.toNat → d.toNat ≤ s.chainLen.toNat →
    exec (.addressedWrite d r v) s = .next { s with
      pending := wireFrame s.chainLen.toNat d.toNat (s.params.regAddr.addr r) v
      pendStatus := .ok
      pendResult := 0x00
      busy := true }

/-- BROADCAST_WRITE: accepted, its N single-pair frames pending, and nothing else changed (R105). -/
def Obligations.BroadcastWriteQueuesItsFrames : Prop :=
  ∀ (s : State) (v : Byte) (r : RegName), s.chainLen ≠ 0 →
    exec (.broadcastWrite r v) s = .next { s with
      pending := onePairFrames s.chainLen.toNat (s.params.regAddr.addr r) v
      pendStatus := .ok
      pendResult := 0x00
      busy := true }

/-- CONFIGURE of a device of the chain: DECODE_MODE, INTENSITY, SCAN_LIMIT in that order, each in its own frame, with
one settle delay between consecutive ones and none elsewhere (R113, R114; the spec's decisions D13, D14). -/
def Obligations.ConfigureQueuesThreeFramesAndTwoDelays : Prop :=
  ∀ (s : State) (d dm : Byte) (inten : BitVec 4) (sl : BitVec 3), 1 ≤ d.toNat → d.toNat ≤ s.chainLen.toNat →
    exec (.configure d dm inten sl) s = .next { s with
      pending :=
        wireFrame s.chainLen.toNat d.toNat s.params.regAddr.decodeMode dm
          ++ [.delay s.params.tSettleUs]
          ++ wireFrame s.chainLen.toNat d.toNat s.params.regAddr.intensity (BitVec.ofNat 8 inten.toNat)
          ++ [.delay s.params.tSettleUs]
          ++ wireFrame s.chainLen.toNat d.toNat s.params.regAddr.scanLimit (BitVec.ofNat 8 sl.toNat)
      pendStatus := .ok
      pendResult := 0x00
      busy := true }

/-- CONFIGURE_ALL: three broadcasts with one settle delay between consecutive ones, none between the frames of one
broadcast (R113, R115; the spec's decision D13, spec/90_conflicts.md C3). -/
def Obligations.ConfigureAllQueuesThreeBroadcasts : Prop :=
  ∀ (s : State) (dm : Byte) (inten : BitVec 4) (sl : BitVec 3), s.chainLen ≠ 0 →
    exec (.configureAll dm inten sl) s = .next { s with
      pending :=
        onePairFrames s.chainLen.toNat s.params.regAddr.decodeMode dm
          ++ [.delay s.params.tSettleUs]
          ++ onePairFrames s.chainLen.toNat s.params.regAddr.intensity (BitVec.ofNat 8 inten.toNat)
          ++ [.delay s.params.tSettleUs]
          ++ onePairFrames s.chainLen.toNat s.params.regAddr.scanLimit (BitVec.ofNat 8 sl.toNat)
      pendStatus := .ok
      pendResult := 0x00
      busy := true }

/-- ENABLE and DISABLE of a device of the chain: one addressed frame that writes SHUTDOWN, 1 to enable and 0 to disable
(R116, R117). -/
def Obligations.EnableAndDisableWriteShutdown : Prop :=
  ∀ (s : State) (d : Byte), 1 ≤ d.toNat → d.toNat ≤ s.chainLen.toNat →
    exec (.enable d) s = .next { s with
        pending := wireFrame s.chainLen.toNat d.toNat s.params.regAddr.shutdown 0x01
        pendStatus := .ok
        pendResult := 0x00
        busy := true }
      ∧ exec (.disable d) s = .next { s with
        pending := wireFrame s.chainLen.toNat d.toNat s.params.regAddr.shutdown 0x00
        pendStatus := .ok
        pendResult := 0x00
        busy := true }

/-- ENABLE_ALL, DISABLE_ALL, SET_TEST_MODE and CLEAR_TEST_MODE: broadcasts of SHUTDOWN and of DISPLAY_TEST, 1 or 0
(R118 to R121). -/
def Obligations.WholeChainSwitchesAreBroadcasts : Prop :=
  ∀ s : State, s.chainLen ≠ 0 →
    exec .enableAll s = .next { s with
        pending := onePairFrames s.chainLen.toNat s.params.regAddr.shutdown 0x01
        pendStatus := .ok
        pendResult := 0x00
        busy := true }
      ∧ exec .disableAll s = .next { s with
        pending := onePairFrames s.chainLen.toNat s.params.regAddr.shutdown 0x00
        pendStatus := .ok
        pendResult := 0x00
        busy := true }
      ∧ exec .setTestMode s = .next { s with
        pending := onePairFrames s.chainLen.toNat s.params.regAddr.displayTest 0x01
        pendStatus := .ok
        pendResult := 0x00
        busy := true }
      ∧ exec .clearTestMode s = .next { s with
        pending := onePairFrames s.chainLen.toNat s.params.regAddr.displayTest 0x00
        pendStatus := .ok
        pendResult := 0x00
        busy := true }

/-- WRITE_DIGIT and CLEAR_DIGIT of a device of the chain and a digit 1..8: one addressed frame that writes DIGIT_(k-1),
with the value or with 0x00 (R132, R133). -/
def Obligations.DigitWritesQueueTheirFrame : Prop :=
  ∀ (s : State) (d k v : Byte) (r : RegName), 1 ≤ d.toNat → d.toNat ≤ s.chainLen.toNat →
    1 ≤ k.toNat → k.toNat ≤ 8 → RegName.all[k.toNat]? = some r →
    exec (.writeDigit d k v) s = .next { s with
        pending := wireFrame s.chainLen.toNat d.toNat (s.params.regAddr.addr r) v
        pendStatus := .ok
        pendResult := 0x00
        busy := true }
      ∧ exec (.clearDigit d k) s = .next { s with
        pending := wireFrame s.chainLen.toNat d.toNat (s.params.regAddr.addr r) 0x00
        pendStatus := .ok
        pendResult := 0x00
        busy := true }

/-- FILL_DEVICE and CLEAR_DEVICE of a device of the chain: the eight digit frames in ascending digit order, with 0xFF or
with 0x00 (R134, R135). -/
def Obligations.DeviceFillsQueueEightFrames : Prop :=
  ∀ (s : State) (d : Byte), 1 ≤ d.toNat → d.toNat ≤ s.chainLen.toNat →
    exec (.fillDevice d) s = .next { s with
        pending := wireDigitFrames s.params.regAddr s.chainLen.toNat d.toNat 0xFF
        pendStatus := .ok
        pendResult := 0x00
        busy := true }
      ∧ exec (.clearDevice d) s = .next { s with
        pending := wireDigitFrames s.params.regAddr s.chainLen.toNat d.toNat 0x00
        pendStatus := .ok
        pendResult := 0x00
        busy := true }

/-- FILL_ALL and CLEAR_ALL: the digit frames of device 1, then of device 2, up to device N (R136, R137; the spec's
decision D17). -/
def Obligations.ChainFillsGoDeviceByDevice : Prop :=
  ∀ s : State, s.chainLen ≠ 0 →
    exec .fillAll s = .next { s with
        pending := (List.range s.chainLen.toNat).flatMap
          (fun k => wireDigitFrames s.params.regAddr s.chainLen.toNat (k + 1) 0xFF)
        pendStatus := .ok
        pendResult := 0x00
        busy := true }
      ∧ exec .clearAll s = .next { s with
        pending := (List.range s.chainLen.toNat).flatMap
          (fun k => wireDigitFrames s.params.regAddr s.chainLen.toNat (k + 1) 0x00)
        pendStatus := .ok
        pendResult := 0x00
        busy := true }

/-- SET_CHAIN_LENGTH: n ≠ 0 becomes CHAIN_LEN and RESULT with OK; n = 0 is InvalidDevice with CHAIN_LEN kept; either
way it completes in its accept step without an event, and nothing else changes (R122; the spec's decisions D9, D27). -/
def Obligations.SetChainLengthSetsAndReturns : Prop :=
  ∀ (s : State) (n : Byte),
    (n ≠ 0 → exec (.setChainLength n) s = .next { s with
        chainLen := n
        status := .ok
        result := n
        completions := s.completions ++ [.ok] })
      ∧ exec (.setChainLength 0) s = .next { s with
        status := .invalidDevice
        result := 0x00
        completions := s.completions ++ [.invalidDevice] }

/-- The device check: `valid_dev(d, N)` is 1 ≤ d ≤ N, and a command whose device is 0 or exceeds CHAIN_LEN (and whose
digit, where it has one, is valid) reports InvalidDevice, emits nothing and changes nothing else (R103). -/
def Obligations.InvalidDeviceEmitsNothing : Prop :=
  (∀ d n : Byte, validDev d n = true ↔ 1 ≤ d.toNat ∧ d.toNat ≤ n.toNat)
    ∧ ∀ (s : State) (d k v dm : Byte) (r : RegName) (inten : BitVec 4) (sl : BitVec 3),
      (d.toNat = 0 ∨ s.chainLen.toNat < d.toNat) → 1 ≤ k.toNat → k.toNat ≤ 8 →
      ∀ i ∈ [Instr.addressedWrite d r v, .configure d dm inten sl, .enable d, .disable d, .writeDigit d k v,
          .clearDigit d k, .fillDevice d, .clearDevice d],
        exec i s = .next { s with
          status := .invalidDevice
          result := 0x00
          completions := s.completions ++ [.invalidDevice] }

/-- The digit check and map: k in 1..8 selects DIGIT_(k-1), whose default wire address is k; every other value of the
field is InvalidDigit, whatever the device is, with no event and nothing else changed (R131). -/
def Obligations.InvalidDigitComesFirst : Prop :=
  (∀ k : Byte, 1 ≤ k.toNat → k.toNat ≤ 8 →
      digitReg k = RegName.all[k.toNat]? ∧ (digitReg k).map RegMap.default.addr = some k)
    ∧ ∀ (s : State) (d k v : Byte), (k.toNat = 0 ∨ 9 ≤ k.toNat) →
      digitReg k = none
        ∧ ∀ i ∈ [Instr.writeDigit d k v, .clearDigit d k],
          exec i s = .next { s with
            status := .invalidDigit
            result := 0x00
            completions := s.completions ++ [.invalidDigit] }

/-- No partial effects: a word that is accepted with events pending will complete with OK and RESULT 0x00, so an error has
no events; and a word that reports an error leaves CHAIN_LEN, the line and the devices as they are, and writes only
STATUS and RESULT = 0x00 (R148). -/
def Obligations.ErrorsHaveNoPartialEffect : Prop :=
  (∀ (w : Word) (s t : State), s.busy = false → runWord w s = .next t → t.busy = true →
      t.pendStatus = .ok ∧ t.pendResult = 0x00)
    ∧ ∀ (w : Word) (s t : State) (e : Status), e ≠ .ok → runWord w s = .next t →
      t.completions = s.completions ++ [e] →
      t = { s with status := e, result := 0x00, completions := s.completions ++ [e] }

/-- The commands that are equivalent in effect: the same event sequence and the same status (R93). -/
def Obligations.EquivalentCommands : Prop :=
  ∀ (s : State) (d k v : Byte),
    exec (.enable d) s = exec (.addressedWrite d .shutdown 1) s
      ∧ exec (.disable d) s = exec (.addressedWrite d .shutdown 0) s
      ∧ exec .enableAll s = exec (.broadcastWrite .shutdown 1) s
      ∧ exec .disableAll s = exec (.broadcastWrite .shutdown 0) s
      ∧ exec .setTestMode s = exec (.broadcastWrite .displayTest 1) s
      ∧ exec .clearTestMode s = exec (.broadcastWrite .displayTest 0) s
      ∧ exec (.clearDigit d k) s = exec (.writeDigit d k 0) s
      ∧ ∀ r, 1 ≤ k.toNat → k.toNat ≤ 8 → RegName.all[k.toNat]? = some r →
          exec (.writeDigit d k v) s = exec (.addressedWrite d r v) s

/-- The chain-length round trip: after SET_CHAIN_LENGTH n the very next command sees n: each of the eight commands with a
device operand, its digit valid where it has one, succeeds for a device 1..n, and for any other is InvalidDevice
(R35, R179; the spec's decisions D12, D27). -/
def Obligations.NextCommandSeesTheNewChainLength : Prop :=
  ∀ (s : State) (n d k v dm : Byte) (r : RegName) (inten : BitVec 4) (sl : BitVec 3), n ≠ 0 → s.busy = false →
    s.pending = [] → 1 ≤ k.toNat → k.toNat ≤ 8 →
    ∀ i ∈ [Instr.addressedWrite d r v, .configure d dm inten sl, .enable d, .disable d, .writeDigit d k v,
        .clearDigit d k, .fillDevice d, .clearDevice d],
      ∃ t, afterCommands [.setChainLength n, i] s = some t ∧ t.chainLen = n ∧ t.busy = false
        ∧ t.completions = s.completions
            ++ [.ok, if 1 ≤ d.toNat ∧ d.toNat ≤ n.toNat then .ok else .invalidDevice]

/-- A command that is given twice, with CHAIN_LEN the same, emits the same events twice and ends with the same status
twice (R69, R138, R151). -/
def Obligations.RepeatedCommandDoesTheSame : Prop :=
  ∀ (i : Instr) (s t u : State), s.busy = false → s.pending = [] → t.chainLen = s.chainLen →
    afterCommand i s = some t → afterCommand i t = some u →
    (∃ evs, t.emitted = s.emitted ++ evs ∧ u.emitted = t.emitted ++ evs)
      ∧ ∃ c, t.completions = s.completions ++ [c] ∧ u.completions = t.completions ++ [c]

/-! ### The devices (spec/20_memory.md §5: the chain reference model, general knowledge, log entry 6) -/

/-- A byte enters the chain: the queue shifts by one toward the far end, device 1 takes the byte, device j + 1 takes what
device j lets go, and no register changes (R61, R62). -/
def Obligations.TransmittedByteShiftsTheChain : Prop :=
  ∀ (b : Cell) (devs : List Device), devs ≠ [] →
    chainQueue (shiftIn b devs) = (chainQueue devs).tail ++ [b]
      ∧ (shiftIn b devs).map Device.regs = devs.map Device.regs
      ∧ (∀ dev, devs[0]? = some dev → (shiftIn b devs)[0]? = some { dev with a := dev.d, d := b })
      ∧ (∀ j dev prev, devs[j + 1]? = some dev → devs[j]? = some prev →
          (shiftIn b devs)[j + 1]? = some { dev with a := dev.d, d := prev.a })

/-- Deselection latches: with the default addresses a device's low address nibble 0 does nothing, 1..12 and 15 write the
value byte to the register of that address, and 13 and 14 leave the whole register file UNKNOWN (R64). -/
def Obligations.DeselectionLatchesByAddressNibble : Prop :=
  ∀ (k : Nat) (dev : Device) (x : Nat), (lowNibble dev.a.value).toNat = x →
    (x = 0 → latchDevice RegMap.default k dev = dev)
      ∧ (∀ r, 1 ≤ x → x ≤ 12 → RegName.all[x]? = some r →
          latchDevice RegMap.default k dev = { dev with regs := dev.regs.write r dev.d })
      ∧ (x = 15 → latchDevice RegMap.default k dev = { dev with regs := dev.regs.write .displayTest dev.d })
      ∧ ((x = 13 ∨ x = 14) → (latchDevice RegMap.default k dev).a = dev.a ∧ (latchDevice RegMap.default k dev).d = dev.d
          ∧ ∀ r c, (latchDevice RegMap.default k dev).regs.read r = some c → ∃ i, k ≤ i ∧ c = .unknown i)

/-- The addressed-frame guarantee: on a chain of the configured length, ADDRESSED_WRITE run to its completion by the
machine leaves the target pair in the target's shift register and no-op pairs in every other one, whatever the chain held
before; it writes the value to the target's register, and every other register of every device stays (R66; the wire
addresses differ in their low nibbles). The chain reference model is general knowledge (log entry 6), and how a device
decodes a non-default map is the model's choice (log entry 7). -/
def Obligations.AddressedWriteReachesOnlyItsDevice : Prop :=
  ∀ (s : State) (d v : Byte) (r : RegName), s.Inv → s.busy = false → regMapDecodable s.params.regAddr →
    s.params.nPhys = s.chainLen → 1 ≤ d.toNat → d.toNat ≤ s.chainLen.toNat →
    ∃ t, commandRun (.addressedWrite d r v) (2 * s.chainLen.toNat + 2) s = .next t
      ∧ t.busy = false ∧ t.status = .ok ∧ t.result = 0x00 ∧ t.csAsserted = false ∧ t.chainLen = s.chainLen
      ∧ t.emitted = s.emitted ++ wireFrame s.chainLen.toNat d.toNat (s.params.regAddr.addr r) v
      ∧ t.shiftReg d.toNat = some (s.params.regAddr.addr r, v)
      ∧ (∀ j, 1 ≤ j → j ≤ s.chainLen.toNat → j ≠ d.toNat → t.shiftReg j = some (0x00, 0x00))
      ∧ (r ≠ .noOp → t.devReg d.toNat r = some v)
      ∧ (∀ j q, ¬(j = d.toNat ∧ q = r) → t.devReg j q = s.devReg j q)

/-- An addressed write on a chain whose physical length differs from CHAIN_LEN (R68, R64; the spec's decision D30): on a
longer chain the target is still reached, and the devices beyond N receive what devices 1.. held before and latch it: a
no-op pair changes none of their registers, and a register's pair changes that register only; on a shorter chain a target
beyond the last device is written by none, and no register of any device changes. The chain reference model is general
knowledge (log entry 6), and how a device decodes a non-default map is the model's choice (log entry 7). -/
def Obligations.AddressedWriteOnAMismatchedChain : Prop :=
  ∀ (s : State) (d v : Byte) (r : RegName), s.Inv → s.busy = false → regMapDecodable s.params.regAddr →
    1 ≤ d.toNat → d.toNat ≤ s.chainLen.toNat →
    ∃ t, commandRun (.addressedWrite d r v) (2 * s.chainLen.toNat + 2) s = .next t ∧ t.busy = false
      ∧ (d.toNat ≤ s.chain.length → t.shiftReg d.toNat = some (s.params.regAddr.addr r, v)
          ∧ (r ≠ .noOp → t.devReg d.toNat r = some v))
      ∧ (∀ j, 1 ≤ j → j ≤ s.chainLen.toNat → j ≤ s.chain.length → j ≠ d.toNat → t.shiftReg j = some (0x00, 0x00))
      ∧ (∀ j q, j ≤ s.chainLen.toNat → ¬(j = d.toNat ∧ q = r) → t.devReg j q = s.devReg j q)
      ∧ (∀ j, s.chainLen.toNat < j → j ≤ s.chain.length → t.shiftReg j = s.shiftReg (j - s.chainLen.toNat))
      ∧ (∀ j a b, s.chainLen.toNat < j → j ≤ s.chain.length → s.shiftReg (j - s.chainLen.toNat) = some (a, b) →
          (lowNibble a = 0 → ∀ q, t.devReg j q = s.devReg j q)
            ∧ ∀ q, q ≠ .noOp → lowNibble a = lowNibble (s.params.regAddr.addr q) →
                t.devReg j q = some b ∧ ∀ q', q' ≠ q → t.devReg j q' = s.devReg j q')
      ∧ (s.chain.length < d.toNat → ∀ j q, j ≤ s.chainLen.toNat → t.devReg j q = s.devReg j q)

/-- A broadcast reaches every device: on a chain of the configured length, BROADCAST_WRITE run to its completion leaves
the pair in every shift register and the value in every device's register; of device 1 nothing else changes (R67; what
the stale pairs of before do to devices 2 to N is BroadcastAfterAddressedWriteAndItsFlush's). The chain reference model is
general knowledge (log entry 6), and how a device decodes a non-default map is the model's choice (log entry 7). -/
def Obligations.BroadcastReachesEveryDevice : Prop :=
  ∀ (s : State) (v : Byte) (r : RegName), s.Inv → s.busy = false → regMapDecodable s.params.regAddr →
    s.params.nPhys = s.chainLen →
    ∃ t, commandRun (.broadcastWrite r v) (4 * s.chainLen.toNat) s = .next t
      ∧ t.busy = false ∧ t.status = .ok ∧ t.result = 0x00 ∧ t.csAsserted = false
      ∧ t.emitted = s.emitted ++ onePairFrames s.chainLen.toNat (s.params.regAddr.addr r) v
      ∧ (∀ j, 1 ≤ j → j ≤ s.chainLen.toNat → t.shiftReg j = some (s.params.regAddr.addr r, v)
          ∧ (r ≠ .noOp → t.devReg j r = some v))
      ∧ (∀ q, q ≠ r → t.devReg 1 q = s.devReg 1 q)

/-- The broadcast-after-addressed hazard and its flush (R176): after an addressed write to device k, a broadcast also
writes the addressed register of every device beyond k; with the flush ADDRESSED_WRITE 1, NO_OP, 0x00 in between it
writes only its own register. The chain reference model is general knowledge (log entry 6), and how a device decodes a
non-default map is the model's choice (log entry 7). -/
def Obligations.BroadcastAfterAddressedWriteAndItsFlush : Prop :=
  ∀ (s : State) (k v v' : Byte) (r r' : RegName), s.Inv → s.busy = false → regMapDecodable s.params.regAddr →
    s.params.nPhys = s.chainLen → 1 ≤ k.toNat → k.toNat ≤ s.chainLen.toNat →
    (∃ t, afterCommands [.addressedWrite k r v, .broadcastWrite r' v'] s = some t
        ∧ ∀ j q, 1 ≤ j → j ≤ s.chainLen.toNat → q ≠ .noOp →
            t.devReg j q = if q = r' then some v' else if q = r ∧ k.toNat ≤ j then some v else s.devReg j q)
      ∧ (∃ t, afterCommands [.addressedWrite k r v, .addressedWrite 1 .noOp 0x00, .broadcastWrite r' v'] s = some t
        ∧ ∀ j q, 1 ≤ j → j ≤ s.chainLen.toNat → q ≠ .noOp →
            t.devReg j q = if q = r' then some v' else if q = r ∧ j = k.toNat then some v else s.devReg j q)

/-- CONFIGURE run to its completion on a chain of the configured length writes the three configuration registers of its
device and no other register (R47, R114). The chain reference model is general knowledge (log entry 6), and how a device
decodes a non-default map is the model's choice (log entry 7). -/
def Obligations.ConfigureWritesItsThreeRegisters : Prop :=
  ∀ (s : State) (d dm : Byte) (inten : BitVec 4) (sl : BitVec 3), s.Inv → s.busy = false →
    regMapDecodable s.params.regAddr → s.params.nPhys = s.chainLen → 1 ≤ d.toNat → d.toNat ≤ s.chainLen.toNat →
    ∃ t, commandRun (.configure d dm inten sl) (6 * s.chainLen.toNat + 8) s = .next t
      ∧ t.busy = false ∧ t.status = .ok
      ∧ t.devReg d.toNat .decodeMode = some dm
      ∧ t.devReg d.toNat .intensity = some (BitVec.ofNat 8 inten.toNat)
      ∧ t.devReg d.toNat .scanLimit = some (BitVec.ofNat 8 sl.toNat)
      ∧ (∀ j q, ¬(j = d.toNat ∧ q ∈ [RegName.decodeMode, .intensity, .scanLimit]) → t.devReg j q = s.devReg j q)

/-- FILL_DEVICE then CLEAR_DEVICE leaves the device's digit registers at 0x00 and changes no other register; it emits the
eight frames of 0xFF and then the eight frames of 0x00, and FILL_DEVICE alone leaves 0xFF (R138, R47). The chain reference
model is general knowledge (log entry 6), and how a device decodes a non-default map is the model's choice (log entry
7). -/
def Obligations.FillThenClearLeavesZeroDigits : Prop :=
  ∀ (s : State) (d : Byte), s.Inv → s.busy = false → regMapDecodable s.params.regAddr →
    s.params.nPhys = s.chainLen → 1 ≤ d.toNat → d.toNat ≤ s.chainLen.toNat →
    ∃ t u, afterCommand (.fillDevice d) s = some t ∧ afterCommand (.clearDevice d) t = some u
      ∧ u.emitted = s.emitted ++ wireDigitFrames s.params.regAddr s.chainLen.toNat d.toNat 0xFF
          ++ wireDigitFrames s.params.regAddr s.chainLen.toNat d.toNat 0x00
      ∧ (∀ q ∈ (RegName.storage).take 8, t.devReg d.toNat q = some 0xFF ∧ u.devReg d.toNat q = some 0x00)
      ∧ (∀ j q, ¬(j = d.toNat ∧ q ∈ (RegName.storage).take 8) →
          t.devReg j q = s.devReg j q ∧ u.devReg j q = s.devReg j q)

/-- FILL_ALL and CLEAR_ALL run to their completion on a chain of the configured length leave 0xFF, or 0x00, in every
digit register of every device, and no other register changes (R136, R137, R47). The chain reference model is general
knowledge (log entry 6), and how a device decodes a non-default map is the model's choice (log entry 7). -/
def Obligations.ChainFillsReachEveryDigit : Prop :=
  ∀ s : State, s.Inv → s.busy = false → regMapDecodable s.params.regAddr → s.params.nPhys = s.chainLen →
    ∀ iv ∈ [((Instr.fillAll, 0xFF) : Instr × Byte), (.clearAll, 0x00)],
      ∃ t, commandRun iv.1 (16 * s.chainLen.toNat ^ 2 + 16 * s.chainLen.toNat) s = .next t
        ∧ t.busy = false ∧ t.status = .ok
        ∧ (∀ j q, 1 ≤ j → j ≤ s.chainLen.toNat → q ∈ (RegName.storage).take 8 → t.devReg j q = some iv.2)
        ∧ (∀ j q, q ∉ (RegName.storage).take 8 → t.devReg j q = s.devReg j q)

/-! ### The wire (spec/20_memory.md R57: the optional bit-level layer, the spec's decision D19) -/

/-- On the wire a receiver that samples the data line at the sampling edge gets the transmitted bytes, each bit by bit in
the chosen order, most significant first by default, in every SPI mode; and in a sequence that keeps the chip-select
discipline the clock moves only while `cs_n` is low (R57). -/
def Obligations.WireCarriesTheBytesInsideFrames : Prop :=
  ∀ (p : Params) (evs : List BusEvent) (d cs : Bool),
    sampledBits (sampleLevel p.phySpiMode) (idleLevel p.phySpiMode) d (wireTrace p evs)
        = (txBytes evs).flatMap (fun b => (List.range 8).map
            (fun i => b.getLsbD (match p.phyBitOrder with | .msbFirst => 7 - i | .lsbFirst => i)))
      ∧ (csDiscipline cs evs = true → clockOnlyWhileSelected (!cs) (wireTrace p evs) = true)
end

