-- ==== Sys2Proof/Laws/Chain.lean ====
section
/-! SUPPORT. Laws/Chain.lean: the devices: what a register write leaves, which register a wire address reaches, and the
lengths that shifting, latching and redrawing keep. -/

namespace Sys2Proof.Machine

/-- Reading the register just written gives the value written. -/
@[simp] theorem read_write_same {n : RegName} (hn : n ≠ .noOp) (f : RegFile) (v : Cell) :
    (f.write n v).read n = some v := by
  cases n <;> first | exact absurd rfl hn | rfl

/-- A register write leaves every other register alone. -/
theorem read_write_other {n r : RegName} (h : r ≠ n) (f : RegFile) (v : Cell) :
    (f.write n v).read r = f.read r := by
  cases n <;> cases r <;> first | exact absurd rfl h | rfl

@[simp] theorem write_noOp (f : RegFile) (v : Cell) : f.write .noOp v = f := rfl
@[simp] theorem read_noOp (f : RegFile) : f.read .noOp = none := rfl

/-- Every register but `NO_OP` holds something. -/
theorem read_isSome {n : RegName} (hn : n ≠ .noOp) (f : RegFile) : (f.read n).isSome = true := by
  cases n <;> first | exact absurd rfl hn | rfl

/-- Two register files that read alike are the same. -/
theorem regFile_ext {f g : RegFile} (h : ∀ n, f.read n = g.read n) : f = g := by
  cases f; cases g
  simp only [RegFile.mk.injEq]
  exact ⟨Option.some.inj (h .digit0), Option.some.inj (h .digit1), Option.some.inj (h .digit2),
    Option.some.inj (h .digit3), Option.some.inj (h .digit4), Option.some.inj (h .digit5),
    Option.some.inj (h .digit6), Option.some.inj (h .digit7), Option.some.inj (h .decodeMode),
    Option.some.inj (h .intensity), Option.some.inj (h .scanLimit), Option.some.inj (h .shutdown),
    Option.some.inj (h .displayTest)⟩

/-- Every byte of a redrawn register file is UNKNOWN, with a draw of its own block. -/
theorem read_freeRegFile {n : RegName} {c : Cell} (k : Nat) (h : (freeRegFile k).read n = some c) :
    ∃ i, i < regFileDraws ∧ c = .unknown (k + i) := by
  cases n <;> simp only [RegFile.read, Option.some.injEq, reduceCtorEq] at h <;> subst h
  exacts [⟨0, by decide, rfl⟩, ⟨1, by decide, rfl⟩, ⟨2, by decide, rfl⟩, ⟨3, by decide, rfl⟩, ⟨4, by decide, rfl⟩,
    ⟨5, by decide, rfl⟩, ⟨6, by decide, rfl⟩, ⟨7, by decide, rfl⟩, ⟨8, by decide, rfl⟩, ⟨9, by decide, rfl⟩,
    ⟨10, by decide, rfl⟩, ⟨11, by decide, rfl⟩, ⟨12, by decide, rfl⟩]

@[simp] theorem freeChain_length (n : Nat) : ∀ k, (freeChain k n).length = n := by
  induction n with
  | zero => intro k; rfl
  | succ n ih => intro k; simp [freeChain, ih]

@[simp] theorem shiftIn_length (c : List Device) : ∀ b, (shiftIn b c).length = c.length := by
  induction c with
  | nil => intro b; rfl
  | cons dev rest ih => intro b; simp [shiftIn, ih]

@[simp] theorem latchAll_length (m : RegMap) (c : List Device) : ∀ k, (latchAll m k c).length = c.length := by
  induction c with
  | nil => intro k; rfl
  | cons dev rest ih => intro k; simp [latchAll, ih]

@[simp] theorem chainQueue_length (c : List Device) : (chainQueue c).length = 2 * c.length := by
  induction c with
  | nil => rfl
  | cons dev rest ih => simp [chainQueue, ih]; omega

/-- Shifting a byte in changes no register of any device (R62). -/
theorem shiftIn_regs (c : List Device) : ∀ b, (shiftIn b c).map Device.regs = c.map Device.regs := by
  induction c with
  | nil => intro b; rfl
  | cons dev rest ih => intro b; simp [shiftIn, ih]

/-- Device `j` latches with the draws of its own block (R64). -/
theorem latchAll_getElem? (m : RegMap) (devs : List Device) :
    ∀ k j, (latchAll m k devs)[j]? = (devs[j]?).map (latchDevice m (k + regFileDraws * j)) := by
  induction devs with
  | nil => intro k j; simp [latchAll]
  | cons dev rest ih =>
    intro k j
    cases j with
    | zero => simp [latchAll]
    | succ j =>
      simp only [latchAll, List.getElem?_cons_succ, ih]
      congr 2
      simp [regFileDraws]; omega

/-- What latching can do to a device: nothing, one register write, or a redraw of the register file; the shift
register stays (R64). -/
theorem latchDevice_cases (m : RegMap) (k : Nat) (dev : Device) :
    latchDevice m k dev = dev
      ∨ (∃ n, latchDevice m k dev = { dev with regs := dev.regs.write n dev.d })
      ∨ latchDevice m k dev = { dev with regs := freeRegFile k } := by
  unfold latchDevice
  split
  · exact .inl rfl
  · exact .inr (.inl ⟨_, rfl⟩)
  · exact .inr (.inr rfl)

@[simp] theorem latchTarget_zero (m : RegMap) : latchTarget m 0 = .noOp := rfl

/-- In a decodable map a device decodes every storage register's wire address to that register (R64's `DEC`). -/
theorem latchTarget_addr {m : RegMap} (h : regMapDecodable m) {n : RegName} (hn : n ≠ .noOp) :
    latchTarget m (lowNibble (m.addr n)) = .store n := by
  have inj : ∀ a b : RegName, lowNibble (m.addr a) = lowNibble (m.addr b) → a = b := by
    intro a b hab
    have ha : a ∈ RegName.all := by cases a <;> decide
    have hb : b ∈ RegName.all := by cases b <;> decide
    exact List.inj_on_of_nodup_map h ha hb hab
  have h0 : lowNibble (m.addr n) ≠ 0 := fun e => hn (inj n .noOp e)
  have hf : RegName.storage.filter (fun r => lowNibble (m.addr r) == lowNibble (m.addr n)) = [n] := by
    have hcongr : RegName.storage.filter (fun r => lowNibble (m.addr r) == lowNibble (m.addr n))
        = RegName.storage.filter (fun r => r == n) := by
      apply List.filter_congr
      intro r _
      by_cases hr : r = n
      · simp [hr]
      · have : lowNibble (m.addr r) ≠ lowNibble (m.addr n) := fun e => hr (inj r n e)
        simp [hr, this]
    rw [hcongr]
    cases n <;> first | exact absurd rfl hn | decide
  rw [latchTarget, if_neg h0, hf]

/-- The default map is legal and decodable. -/
theorem default_decodable : regMapDecodable RegMap.default := by decide

end Sys2Proof.Machine
end

