-- ==== Sys2Proof/Laws/Decode.lean ====
section
/-! SUPPORT. Laws/Decode.lean: the fields of a word built from its grid (spec/30_encoding.md R74), and the REG codes
(R80). -/

namespace Sys2Proof

@[simp] theorem opField_gridWord (op : BitVec 5) (dev b1 b0 : Byte) : opField (gridWord op dev b1 b0) = op := by
  apply BitVec.eq_of_getLsbD_eq
  intro i hi
  interval_cases i <;> simp [opField, gridWord]

@[simp] theorem devField_gridWord (op : BitVec 5) (dev b1 b0 : Byte) : devField (gridWord op dev b1 b0) = dev := by
  apply BitVec.eq_of_getLsbD_eq
  intro i hi
  interval_cases i <;> simp [devField, gridWord]

@[simp] theorem b1Field_gridWord (op : BitVec 5) (dev b1 b0 : Byte) : b1Field (gridWord op dev b1 b0) = b1 := by
  apply BitVec.eq_of_getLsbD_eq
  intro i hi
  interval_cases i <;> simp [b1Field, gridWord]

@[simp] theorem b0Field_gridWord (op : BitVec 5) (dev b1 b0 : Byte) : b0Field (gridWord op dev b1 b0) = b0 := by
  apply BitVec.eq_of_getLsbD_eq
  intro i hi
  interval_cases i <;> simp [b0Field, gridWord]

@[simp] theorem regField_gridWord (op : BitVec 5) (dev b0 : Byte) (r : RegName) :
    regField (gridWord op dev (regByte r) b0) = r.code := by
  apply BitVec.eq_of_getLsbD_eq
  intro i hi
  interval_cases i <;> simp [regField, gridWord, regByte]

@[simp] theorem slField_gridWord (op : BitVec 5) (dev b1 : Byte) (inten : BitVec 4) (sl : BitVec 3) :
    slField (gridWord op dev b1 (scanIntensityByte inten sl)) = sl := by
  apply BitVec.eq_of_getLsbD_eq
  intro i hi
  interval_cases i <;> simp [slField, gridWord, scanIntensityByte]

@[simp] theorem inField_gridWord (op : BitVec 5) (dev b1 : Byte) (inten : BitVec 4) (sl : BitVec 3) :
    inField (gridWord op dev b1 (scanIntensityByte inten sl)) = inten := by
  apply BitVec.eq_of_getLsbD_eq
  intro i hi
  interval_cases i <;> simp [inField, gridWord, scanIntensityByte]

/-- A REG code and its name determine each other (R80). -/
@[simp] theorem ofCode_code (r : RegName) : RegName.ofCode r.code = some r := by
  cases r <;> decide

theorem code_of_ofCode {c : BitVec 4} {r : RegName} (h : RegName.ofCode c = some r) : r.code = c := by
  revert h
  revert c
  cases r <;> decide

/-- Codes 14 and 15 are the reserved ones (R80). -/
theorem ofCode_isSome (c : BitVec 4) : (RegName.ofCode c).isSome = decide (c.toNat ≤ 13) := by
  revert c
  decide

end Sys2Proof
end

