-- ==== Sys2Proof/Laws/Frames.lean ====
section
/-! SUPPORT. Laws/Frames.lean: sequences of bus events: what concatenation does to the chip-select discipline, to the
pair discipline, to the bytes and to the line's level, and these of one frame. -/

namespace Sys2Proof.Machine

@[simp] theorem concatUp_zero {α : Type} (f : Nat → List α) (a : Nat) : concatUp f a 0 = [] := rfl
theorem concatUp_succ {α : Type} (f : Nat → List α) (a n : Nat) :
    concatUp f a (n + 1) = f a ++ concatUp f (a + 1) n := rfl
@[simp] theorem concatDown_zero {α : Type} (f : Nat → List α) : concatDown f 0 = [] := rfl
theorem concatDown_succ {α : Type} (f : Nat → List α) (n : Nat) :
    concatDown f (n + 1) = f (n + 1) ++ concatDown f n := rfl

/-- A property of the empty sequence that survives putting any `f p` in front holds of `concatUp`. -/
theorem concatUp_induction {α : Type} {P : List α → Prop} {f : Nat → List α} (nil : P [])
    (app : ∀ p es, P es → P (f p ++ es)) : ∀ n a, P (concatUp f a n)
  | 0, _ => nil
  | n + 1, a => app a _ (concatUp_induction nil app n (a + 1))

/-- The same for `concatDown`. -/
theorem concatDown_induction {α : Type} {P : List α → Prop} {f : Nat → List α} (nil : P [])
    (app : ∀ p es, P es → P (f p ++ es)) : ∀ n, P (concatDown f n)
  | 0 => nil
  | n + 1 => app (n + 1) _ (concatDown_induction nil app n)

/-- After a sequence that keeps the discipline the line is deasserted, so the discipline goes on from there. -/
theorem csDiscipline_append (xs ys : List BusEvent) :
    ∀ cs, csDiscipline cs xs = true → csDiscipline cs (xs ++ ys) = csDiscipline false ys := by
  induction xs with
  | nil => intro cs h; cases cs <;> simp_all [csDiscipline]
  | cons e es ih =>
    intro cs h
    match cs, e with
    | false, .sel true => exact ih true h
    | true, .sel false => exact ih false h
    | true, .tx _ => exact ih true h
    | false, .delay _ => exact ih false h
    | false, .sel false => simp [csDiscipline] at h
    | false, .tx _ => simp [csDiscipline] at h
    | true, .sel true => simp [csDiscipline] at h
    | true, .delay _ => simp [csDiscipline] at h

theorem wholePairs_append (xs ys : List BusEvent) :
    ∀ odd, wholePairs odd xs = true → wholePairs odd (xs ++ ys) = wholePairs false ys := by
  induction xs with
  | nil => intro odd h; cases odd <;> simp_all [wholePairs]
  | cons e es ih =>
    intro odd h
    cases e with
    | sel b => simp only [wholePairs, Bool.and_eq_true] at h; simp [wholePairs, h.1, ih false h.2]
    | tx b => exact ih (!odd) h
    | delay n => exact ih odd h

@[simp] theorem txBytes_append (xs ys : List BusEvent) : txBytes (xs ++ ys) = txBytes xs ++ txBytes ys := by
  induction xs with
  | nil => rfl
  | cons e es ih => cases e <;> simp [txBytes, ih]

@[simp] theorem csAfter_nil (cs : Bool) : csAfter cs [] = cs := rfl
theorem csAfter_append (cs : Bool) (xs ys : List BusEvent) :
    csAfter cs (xs ++ ys) = csAfter (csAfter cs xs) ys := by simp [csAfter]

/-- A sequence that keeps the discipline leaves the line deasserted (R39). -/
theorem csAfter_of_csDiscipline (es : List BusEvent) :
    ∀ cs, csDiscipline cs es = true → csAfter cs es = false := by
  induction es with
  | nil => intro cs h; cases cs <;> simp_all [csDiscipline]
  | cons e es ih =>
    intro cs h
    match cs, e with
    | false, .sel true => exact ih true h
    | true, .sel false => exact ih false h
    | true, .tx _ => exact ih true h
    | false, .delay _ => exact ih false h
    | false, .sel false => simp [csDiscipline] at h
    | false, .tx _ => simp [csDiscipline] at h
    | true, .sel true => simp [csDiscipline] at h
    | true, .delay _ => simp [csDiscipline] at h

/-- One step of the discipline: the head event is allowed, and the rest keeps it from the level it leaves. -/
theorem csDiscipline_cons {cs : Bool} {e : BusEvent} {es : List BusEvent}
    (h : csDiscipline cs (e :: es) = true) : csDiscipline (csAfter cs [e]) es = true := by
  match cs, e with
  | false, .sel true => exact h
  | true, .sel false => exact h
  | true, .tx _ => exact h
  | false, .delay _ => exact h
  | false, .sel false => simp [csDiscipline] at h
  | false, .tx _ => simp [csDiscipline] at h
  | true, .sel true => simp [csDiscipline] at h
  | true, .delay _ => simp [csDiscipline] at h

/-- The body of an addressed frame is bytes only: the frame goes on inside. -/
theorem csDiscipline_pairs (d : Nat) (a v : Byte) (es : List BusEvent) (n : Nat) :
    csDiscipline true (concatDown (fun p => if p = d then pair a v else noOpPair) n ++ es)
      = csDiscipline true es := by
  induction n with
  | zero => rfl
  | succ n ih =>
    rw [concatDown_succ, List.append_assoc]
    split <;> simpa [pair, noOpPair, csDiscipline] using ih

theorem wholePairs_pairs (d : Nat) (a v : Byte) (es : List BusEvent) (n : Nat) :
    wholePairs false (concatDown (fun p => if p = d then pair a v else noOpPair) n ++ es)
      = wholePairs false es := by
  induction n with
  | zero => rfl
  | succ n ih =>
    rw [concatDown_succ, List.append_assoc]
    split <;> simpa [pair, noOpPair, wholePairs] using ih

/-- An addressed frame keeps the chip-select discipline. -/
@[simp] theorem csDiscipline_addrFrame (n d a v : Byte) : csDiscipline false (addrFrame n d a v) = true := by
  simp [addrFrame, csDiscipline, csDiscipline_pairs]

/-- An addressed frame holds whole pairs (R55). -/
@[simp] theorem wholePairs_addrFrame (n d a v : Byte) : wholePairs false (addrFrame n d a v) = true := by
  simp [addrFrame, wholePairs, wholePairs_pairs]

/-- Broadcast frames keep the chip-select discipline. -/
@[simp] theorem csDiscipline_bcastFrames (n a v : Byte) : csDiscipline false (bcastFrames n a v) = true :=
  concatUp_induction (P := fun es => csDiscipline false es = true) rfl
    (fun _ es h => by simpa [pair, csDiscipline] using h) _ _

/-- Broadcast frames hold one whole pair each. -/
@[simp] theorem wholePairs_bcastFrames (n a v : Byte) : wholePairs false (bcastFrames n a v) = true :=
  concatUp_induction (P := fun es => wholePairs false es = true) rfl
    (fun _ es h => by simpa [pair, wholePairs] using h) _ _

end Sys2Proof.Machine
end

