-- ==== Sys2Proof/Laws/State.lean ====
section
/-! SUPPORT. Laws/State.lean: what each field of the state is after each update of it, so that no proof unfolds a
record update. -/

namespace Sys2Proof.Machine

/-! ### `State.report`: the write of STATUS and RESULT -/

@[simp] theorem report_chainLen (s : State) (c : Status) (r : Byte) : (s.report c r).chainLen = s.chainLen := rfl
@[simp] theorem report_status (s : State) (c : Status) (r : Byte) : (s.report c r).status = c := rfl
@[simp] theorem report_result (s : State) (c : Status) (r : Byte) : (s.report c r).result = r := rfl
@[simp] theorem report_busy (s : State) (c : Status) (r : Byte) : (s.report c r).busy = s.busy := rfl
@[simp] theorem report_csAsserted (s : State) (c : Status) (r : Byte) : (s.report c r).csAsserted = s.csAsserted := rfl
@[simp] theorem report_pending (s : State) (c : Status) (r : Byte) : (s.report c r).pending = s.pending := rfl
@[simp] theorem report_pendStatus (s : State) (c : Status) (r : Byte) : (s.report c r).pendStatus = s.pendStatus := rfl
@[simp] theorem report_pendResult (s : State) (c : Status) (r : Byte) : (s.report c r).pendResult = s.pendResult := rfl
@[simp] theorem report_chain (s : State) (c : Status) (r : Byte) : (s.report c r).chain = s.chain := rfl
@[simp] theorem report_draws (s : State) (c : Status) (r : Byte) : (s.report c r).draws = s.draws := rfl
@[simp] theorem report_inputs (s : State) (c : Status) (r : Byte) : (s.report c r).inputs = s.inputs := rfl
@[simp] theorem report_emitted (s : State) (c : Status) (r : Byte) : (s.report c r).emitted = s.emitted := rfl
@[simp] theorem report_completions (s : State) (c : Status) (r : Byte) : (s.report c r).completions = s.completions ++ [c] := rfl
@[simp] theorem report_params (s : State) (c : Status) (r : Byte) : (s.report c r).params = s.params := rfl

/-! ### `complete` -/

@[simp] theorem complete_chainLen (s : State) : (complete s).chainLen = s.chainLen := rfl
@[simp] theorem complete_status (s : State) : (complete s).status = s.pendStatus := rfl
@[simp] theorem complete_result (s : State) : (complete s).result = s.pendResult := rfl
@[simp] theorem complete_busy (s : State) : (complete s).busy = false := rfl
@[simp] theorem complete_csAsserted (s : State) : (complete s).csAsserted = s.csAsserted := rfl
@[simp] theorem complete_pending (s : State) : (complete s).pending = s.pending := rfl
@[simp] theorem complete_pendStatus (s : State) : (complete s).pendStatus = .ok := rfl
@[simp] theorem complete_pendResult (s : State) : (complete s).pendResult = 0x00 := rfl
@[simp] theorem complete_chain (s : State) : (complete s).chain = s.chain := rfl
@[simp] theorem complete_draws (s : State) : (complete s).draws = s.draws := rfl
@[simp] theorem complete_inputs (s : State) : (complete s).inputs = s.inputs := rfl
@[simp] theorem complete_emitted (s : State) : (complete s).emitted = s.emitted := rfl
@[simp] theorem complete_completions (s : State) : (complete s).completions = s.completions ++ [s.pendStatus] := rfl
@[simp] theorem complete_params (s : State) : (complete s).params = s.params := rfl

/-! ### `State.takePins` -/

@[simp] theorem takePins_chainLen (s : State) : (s.takePins).chainLen = s.chainLen := rfl
@[simp] theorem takePins_status (s : State) : (s.takePins).status = s.status := rfl
@[simp] theorem takePins_result (s : State) : (s.takePins).result = s.result := rfl
@[simp] theorem takePins_busy (s : State) : (s.takePins).busy = s.busy := rfl
@[simp] theorem takePins_csAsserted (s : State) : (s.takePins).csAsserted = s.csAsserted := rfl
@[simp] theorem takePins_pending (s : State) : (s.takePins).pending = s.pending := rfl
@[simp] theorem takePins_pendStatus (s : State) : (s.takePins).pendStatus = s.pendStatus := rfl
@[simp] theorem takePins_pendResult (s : State) : (s.takePins).pendResult = s.pendResult := rfl
@[simp] theorem takePins_chain (s : State) : (s.takePins).chain = s.chain := rfl
@[simp] theorem takePins_draws (s : State) : (s.takePins).draws = s.draws := rfl
@[simp] theorem takePins_inputs (s : State) : (s.takePins).inputs = s.inputs.tail := rfl
@[simp] theorem takePins_emitted (s : State) : (s.takePins).emitted = s.emitted := rfl
@[simp] theorem takePins_completions (s : State) : (s.takePins).completions = s.completions := rfl
@[simp] theorem takePins_params (s : State) : (s.takePins).params = s.params := rfl

/-! ### `State.idled` -/

@[simp] theorem idled_chainLen (s : State) : (s.idled).chainLen = s.chainLen := rfl
@[simp] theorem idled_status (s : State) : (s.idled).status = s.status := rfl
@[simp] theorem idled_result (s : State) : (s.idled).result = s.result := rfl
@[simp] theorem idled_busy (s : State) : (s.idled).busy = false := rfl
@[simp] theorem idled_csAsserted (s : State) : (s.idled).csAsserted = false := rfl
@[simp] theorem idled_pending (s : State) : (s.idled).pending = [] := rfl
@[simp] theorem idled_pendStatus (s : State) : (s.idled).pendStatus = .ok := rfl
@[simp] theorem idled_pendResult (s : State) : (s.idled).pendResult = 0x00 := rfl
@[simp] theorem idled_chain (s : State) : (s.idled).chain = s.chain := rfl
@[simp] theorem idled_draws (s : State) : (s.idled).draws = s.draws := rfl
@[simp] theorem idled_inputs (s : State) : (s.idled).inputs = s.inputs := rfl
@[simp] theorem idled_emitted (s : State) : (s.idled).emitted = s.emitted := rfl
@[simp] theorem idled_completions (s : State) : (s.idled).completions = s.completions := rfl
@[simp] theorem idled_params (s : State) : (s.idled).params = s.params := rfl

/-! ### `State.withFetchWord` -/

@[simp] theorem withFetchWord_chainLen (s : State) (k w : Nat) : (s.withFetchWord k w).chainLen = s.chainLen := rfl
@[simp] theorem withFetchWord_status (s : State) (k w : Nat) : (s.withFetchWord k w).status = s.status := rfl
@[simp] theorem withFetchWord_result (s : State) (k w : Nat) : (s.withFetchWord k w).result = s.result := rfl
@[simp] theorem withFetchWord_busy (s : State) (k w : Nat) : (s.withFetchWord k w).busy = false := rfl
@[simp] theorem withFetchWord_csAsserted (s : State) (k w : Nat) : (s.withFetchWord k w).csAsserted = false := rfl
@[simp] theorem withFetchWord_pending (s : State) (k w : Nat) : (s.withFetchWord k w).pending = [] := rfl
@[simp] theorem withFetchWord_pendStatus (s : State) (k w : Nat) : (s.withFetchWord k w).pendStatus = .ok := rfl
@[simp] theorem withFetchWord_pendResult (s : State) (k w : Nat) : (s.withFetchWord k w).pendResult = 0x00 := rfl
@[simp] theorem withFetchWord_chain (s : State) (k w : Nat) : (s.withFetchWord k w).chain = s.chain := rfl
@[simp] theorem withFetchWord_draws (s : State) (k w : Nat) : (s.withFetchWord k w).draws = s.draws := rfl
@[simp] theorem withFetchWord_inputs (s : State) (k w : Nat) : (s.withFetchWord k w).inputs = Pins.command (BitVec.ofNat 32 (w % 2 ^ k)) :: s.inputs := rfl
@[simp] theorem withFetchWord_emitted (s : State) (k w : Nat) : (s.withFetchWord k w).emitted = s.emitted := rfl
@[simp] theorem withFetchWord_completions (s : State) (k w : Nat) : (s.withFetchWord k w).completions = s.completions := rfl
@[simp] theorem withFetchWord_params (s : State) (k w : Nat) : (s.withFetchWord k w).params = s.params := rfl

/-! ### `onAck`, event by event: `emitted` and `pending` are `emitHead`'s to change -/

@[simp] theorem onAck_select_chainLen (s : State) : (onAck (.sel true) s).chainLen = s.chainLen := rfl
@[simp] theorem onAck_select_status (s : State) : (onAck (.sel true) s).status = s.status := rfl
@[simp] theorem onAck_select_result (s : State) : (onAck (.sel true) s).result = s.result := rfl
@[simp] theorem onAck_select_busy (s : State) : (onAck (.sel true) s).busy = s.busy := rfl
@[simp] theorem onAck_select_csAsserted (s : State) : (onAck (.sel true) s).csAsserted = true := rfl
@[simp] theorem onAck_select_pending (s : State) : (onAck (.sel true) s).pending = s.pending := rfl
@[simp] theorem onAck_select_pendStatus (s : State) : (onAck (.sel true) s).pendStatus = s.pendStatus := rfl
@[simp] theorem onAck_select_pendResult (s : State) : (onAck (.sel true) s).pendResult = s.pendResult := rfl
@[simp] theorem onAck_select_chain (s : State) : (onAck (.sel true) s).chain = s.chain := rfl
@[simp] theorem onAck_select_draws (s : State) : (onAck (.sel true) s).draws = s.draws := rfl
@[simp] theorem onAck_select_inputs (s : State) : (onAck (.sel true) s).inputs = s.inputs := rfl
@[simp] theorem onAck_select_emitted (s : State) : (onAck (.sel true) s).emitted = s.emitted := rfl
@[simp] theorem onAck_select_completions (s : State) : (onAck (.sel true) s).completions = s.completions := rfl
@[simp] theorem onAck_select_params (s : State) : (onAck (.sel true) s).params = s.params := rfl

@[simp] theorem onAck_deselect_chainLen (s : State) : (onAck (.sel false) s).chainLen = s.chainLen := rfl
@[simp] theorem onAck_deselect_status (s : State) : (onAck (.sel false) s).status = s.status := rfl
@[simp] theorem onAck_deselect_result (s : State) : (onAck (.sel false) s).result = s.result := rfl
@[simp] theorem onAck_deselect_busy (s : State) : (onAck (.sel false) s).busy = s.busy := rfl
@[simp] theorem onAck_deselect_csAsserted (s : State) : (onAck (.sel false) s).csAsserted = false := rfl
@[simp] theorem onAck_deselect_pending (s : State) : (onAck (.sel false) s).pending = s.pending := rfl
@[simp] theorem onAck_deselect_pendStatus (s : State) : (onAck (.sel false) s).pendStatus = s.pendStatus := rfl
@[simp] theorem onAck_deselect_pendResult (s : State) : (onAck (.sel false) s).pendResult = s.pendResult := rfl
@[simp] theorem onAck_deselect_chain (s : State) : (onAck (.sel false) s).chain = latchAll s.params.regAddr s.draws s.chain := rfl
@[simp] theorem onAck_deselect_draws (s : State) : (onAck (.sel false) s).draws = s.draws + regFileDraws * s.chain.length := rfl
@[simp] theorem onAck_deselect_inputs (s : State) : (onAck (.sel false) s).inputs = s.inputs := rfl
@[simp] theorem onAck_deselect_emitted (s : State) : (onAck (.sel false) s).emitted = s.emitted := rfl
@[simp] theorem onAck_deselect_completions (s : State) : (onAck (.sel false) s).completions = s.completions := rfl
@[simp] theorem onAck_deselect_params (s : State) : (onAck (.sel false) s).params = s.params := rfl

@[simp] theorem onAck_tx_chainLen (b : Byte) (s : State) : (onAck (.tx b) s).chainLen = s.chainLen := rfl
@[simp] theorem onAck_tx_status (b : Byte) (s : State) : (onAck (.tx b) s).status = s.status := rfl
@[simp] theorem onAck_tx_result (b : Byte) (s : State) : (onAck (.tx b) s).result = s.result := rfl
@[simp] theorem onAck_tx_busy (b : Byte) (s : State) : (onAck (.tx b) s).busy = s.busy := rfl
@[simp] theorem onAck_tx_csAsserted (b : Byte) (s : State) : (onAck (.tx b) s).csAsserted = s.csAsserted := rfl
@[simp] theorem onAck_tx_pending (b : Byte) (s : State) : (onAck (.tx b) s).pending = s.pending := rfl
@[simp] theorem onAck_tx_pendStatus (b : Byte) (s : State) : (onAck (.tx b) s).pendStatus = s.pendStatus := rfl
@[simp] theorem onAck_tx_pendResult (b : Byte) (s : State) : (onAck (.tx b) s).pendResult = s.pendResult := rfl
@[simp] theorem onAck_tx_chain (b : Byte) (s : State) : (onAck (.tx b) s).chain = shiftIn (.known b) s.chain := rfl
@[simp] theorem onAck_tx_draws (b : Byte) (s : State) : (onAck (.tx b) s).draws = s.draws := rfl
@[simp] theorem onAck_tx_inputs (b : Byte) (s : State) : (onAck (.tx b) s).inputs = s.inputs := rfl
@[simp] theorem onAck_tx_emitted (b : Byte) (s : State) : (onAck (.tx b) s).emitted = s.emitted := rfl
@[simp] theorem onAck_tx_completions (b : Byte) (s : State) : (onAck (.tx b) s).completions = s.completions := rfl
@[simp] theorem onAck_tx_params (b : Byte) (s : State) : (onAck (.tx b) s).params = s.params := rfl

@[simp] theorem onAck_delay (n : Nat) (s : State) : onAck (.delay n) s = s := rfl

/-! ### `blockReset`: every block register at its reset value -/

@[simp] theorem blockReset_chainLen (s : State) : (blockReset s).chainLen = s.params.chainLenReset := rfl
@[simp] theorem blockReset_status (s : State) : (blockReset s).status = .ok := rfl
@[simp] theorem blockReset_result (s : State) : (blockReset s).result = 0x00 := rfl
@[simp] theorem blockReset_busy (s : State) : (blockReset s).busy = false := rfl
@[simp] theorem blockReset_csAsserted (s : State) : (blockReset s).csAsserted = false := rfl
@[simp] theorem blockReset_pending (s : State) : (blockReset s).pending = [] := rfl
@[simp] theorem blockReset_pendStatus (s : State) : (blockReset s).pendStatus = .ok := rfl
@[simp] theorem blockReset_pendResult (s : State) : (blockReset s).pendResult = 0x00 := rfl
@[simp] theorem blockReset_inputs (s : State) : (blockReset s).inputs = s.inputs := by
  unfold blockReset chainOnReset; split <;> rfl
@[simp] theorem blockReset_emitted (s : State) : (blockReset s).emitted = s.emitted := by
  unfold blockReset chainOnReset; split <;> rfl
@[simp] theorem blockReset_completions (s : State) : (blockReset s).completions = s.completions := by
  unfold blockReset chainOnReset; split <;> rfl
@[simp] theorem blockReset_params (s : State) : (blockReset s).params = s.params := by
  unfold blockReset chainOnReset; split <;> rfl
theorem blockReset_chain (s : State) :
    (blockReset s).chain = if s.csAsserted then freeChain s.draws s.chain.length else s.chain := by
  unfold blockReset chainOnReset; split <;> rfl

/-! ### `State.powerOn` -/

@[simp] theorem powerOn_chainLen (p : Params) : (State.powerOn p).chainLen = p.chainLenReset := rfl
@[simp] theorem powerOn_status (p : Params) : (State.powerOn p).status = .ok := rfl
@[simp] theorem powerOn_result (p : Params) : (State.powerOn p).result = 0x00 := rfl
@[simp] theorem powerOn_busy (p : Params) : (State.powerOn p).busy = false := rfl
@[simp] theorem powerOn_csAsserted (p : Params) : (State.powerOn p).csAsserted = false := rfl
@[simp] theorem powerOn_pending (p : Params) : (State.powerOn p).pending = [] := rfl
@[simp] theorem powerOn_pendStatus (p : Params) : (State.powerOn p).pendStatus = .ok := rfl
@[simp] theorem powerOn_pendResult (p : Params) : (State.powerOn p).pendResult = 0x00 := rfl
@[simp] theorem powerOn_chain (p : Params) : (State.powerOn p).chain = freeChain 0 p.nPhys.toNat := rfl
@[simp] theorem powerOn_draws (p : Params) : (State.powerOn p).draws = deviceDraws * p.nPhys.toNat := rfl
@[simp] theorem powerOn_inputs (p : Params) : (State.powerOn p).inputs = [] := rfl
@[simp] theorem powerOn_emitted (p : Params) : (State.powerOn p).emitted = [] := rfl
@[simp] theorem powerOn_completions (p : Params) : (State.powerOn p).completions = [] := rfl
@[simp] theorem powerOn_params (p : Params) : (State.powerOn p).params = p := rfl

end Sys2Proof.Machine
end

