-- ==== Sys2Proof/Laws/Ops.lean ====
section
/-! SUPPORT. Laws/Ops.lean: the shared operations, each said once: the accept step, the emit step, a command's answer,
one arm of `exec`, and one step. -/

namespace Sys2Proof.Machine

/-- An answer without events completes in the accept step (spec/10_state.md R35). -/
theorem accept_of_events_nil {r : Reply} {s : State} (h : r.events = []) :
    accept r s = State.report { s with chainLen := r.chainLen } r.status r.result := by
  simp [accept, h]

/-- An answer with events makes the block BUSY with them (R35). -/
theorem accept_of_events_ne_nil {r : Reply} {s : State} (h : r.events ≠ []) :
    accept r s = { s with chainLen := r.chainLen, pending := r.events, pendStatus := r.status,
                          pendResult := r.result, busy := true } := by
  match hr : r.events with
  | [] => exact absurd hr h
  | e :: es => simp [accept, hr]

@[simp] theorem accept_raise (s : State) (c : Status) :
    accept (Reply.raise s c) s = s.report c 0x00 := rfl

/-- A command carried out in full becomes the pending one. -/
theorem accept_play {s : State} {evs : List BusEvent} (h : evs ≠ []) :
    accept (Reply.play s evs) s
      = { s with pending := evs, pendStatus := .ok, pendResult := 0x00, busy := true } :=
  accept_of_events_ne_nil h

@[simp] theorem emitHead_of_pending_nil {s : State} (h : s.pending = []) : emitHead s = s := by
  simp [emitHead, h]

/-- The last event's acknowledgement completes the command (R36, R37). -/
theorem emitHead_of_last {s : State} {e : BusEvent} (h : s.pending = [e]) :
    emitHead s = complete { onAck e s with pending := [], emitted := s.emitted ++ [e] } := by
  simp [emitHead, h]

/-- Any other acknowledgement only moves on to the next event (R36). -/
theorem emitHead_of_more {s : State} {e : BusEvent} {es : List BusEvent} (h : s.pending = e :: es) (hes : es ≠ []) :
    emitHead s = { onAck e s with pending := es, emitted := s.emitted ++ [e] } := by
  match es, hes with
  | e' :: es', _ => simp [emitHead, h]

/-- What no acknowledgement changes. -/
theorem onAck_frame (e : BusEvent) (s : State) :
    (onAck e s).chainLen = s.chainLen ∧ (onAck e s).status = s.status ∧ (onAck e s).result = s.result
      ∧ (onAck e s).busy = s.busy ∧ (onAck e s).pending = s.pending ∧ (onAck e s).pendStatus = s.pendStatus
      ∧ (onAck e s).pendResult = s.pendResult ∧ (onAck e s).inputs = s.inputs ∧ (onAck e s).emitted = s.emitted
      ∧ (onAck e s).completions = s.completions ∧ (onAck e s).params = s.params := by
  cases e with
  | sel b => cases b <;> simp
  | tx b => simp
  | delay n => simp

/-- The line after an acknowledgement (R29, R36). -/
theorem onAck_csAsserted (e : BusEvent) (s : State) : (onAck e s).csAsserted = csAfter s.csAsserted [e] := by
  cases e with
  | sel b => cases b <;> rfl
  | tx b => rfl
  | delay n => rfl

/-- Everything a command's answer on a device operand can be. -/
theorem replyOnDevice_cases (s : State) (dev : Byte) (evs : List BusEvent) :
    (validDev dev s.chainLen = true ∧ replyOnDevice s dev evs = Reply.play s evs)
      ∨ (validDev dev s.chainLen = false ∧ replyOnDevice s dev evs = Reply.raise s .invalidDevice) := by
  cases h : validDev dev s.chainLen
  · exact .inr ⟨rfl, by simp [replyOnDevice, h]⟩
  · exact .inl ⟨rfl, by simp [replyOnDevice, h]⟩

theorem replyOnDevice_chainLen (s : State) (dev : Byte) (evs : List BusEvent) :
    (replyOnDevice s dev evs).chainLen = s.chainLen := by
  rcases replyOnDevice_cases s dev evs with ⟨_, e⟩ | ⟨_, e⟩ <;> rw [e] <;> rfl

/-- One step with nothing but its pins taken. -/
theorem step_eq (s : State) : step s = stepPins s.nextPins s.takePins := rfl

/-- Everything one step can do: be reset, acknowledge, wait, accept a command, or report a word that spells none. -/
theorem step_cases (s : State) :
    (s.nextPins.rst = true ∧ step s = .next (blockReset s.takePins))
      ∨ (s.nextPins.rst = false ∧ s.busy = true ∧ s.nextPins.evAck = true ∧ step s = .next (emitHead s.takePins))
      ∨ (s.nextPins.rst = false ∧ s.busy = true ∧ s.nextPins.evAck = false ∧ step s = .next s.takePins)
      ∨ (s.nextPins.rst = false ∧ s.busy = false ∧ s.nextPins.cmdValid = false ∧ step s = .next s.takePins)
      ∨ (s.nextPins.rst = false ∧ s.busy = false ∧ s.nextPins.cmdValid = true
          ∧ (∃ i, decode s.nextPins.cmdWord = .ok i ∧ step s = exec i s.takePins))
      ∨ (s.nextPins.rst = false ∧ s.busy = false ∧ s.nextPins.cmdValid = true
          ∧ (∃ e, decode s.nextPins.cmdWord = .error e ∧ step s = .next (acceptIllegal s.takePins))) := by
  rw [step_eq]
  cases hr : s.nextPins.rst <;> cases hbusy : s.busy <;> cases ha : s.nextPins.evAck <;>
    cases hv : s.nextPins.cmdValid <;> simp [stepPins, hr, hbusy, ha, hv, runWord]
  all_goals cases hd : decode s.nextPins.cmdWord <;> simp

end Sys2Proof.Machine
end

