-- ==== Sys2Proof/Laws/Exec.lean ====
section
/-! SUPPORT. Laws/Exec.lean: what every arm of `exec` has in common: it accepts one sound answer, and of the state that
answer can change CHAIN_LEN only for SET_CHAIN_LENGTH (spec/10_state.md R35, R24). -/

namespace Sys2Proof.Machine

@[simp] theorem state_addrFrame_eq (s : State) (dev : Byte) (r : RegName) (v : Byte) :
    s.addrFrame dev r v = addrFrame s.chainLen dev (s.params.regAddr.addr r) v := rfl
@[simp] theorem state_bcastFrames_eq (s : State) (r : RegName) (v : Byte) :
    s.bcastFrames r v = bcastFrames s.chainLen (s.params.regAddr.addr r) v := rfl
@[simp] theorem state_settle_eq (s : State) : s.settle = [.delay s.params.tSettleUs] := rfl

/-- Sequences that keep both disciplines can be put one after the other. -/
theorem disciplines_append {xs ys : List BusEvent}
    (hx : csDiscipline false xs = true ∧ wholePairs false xs = true)
    (hy : csDiscipline false ys = true ∧ wholePairs false ys = true) :
    csDiscipline false (xs ++ ys) = true ∧ wholePairs false (xs ++ ys) = true := by
  rw [csDiscipline_append _ _ _ hx.1, wholePairs_append _ _ _ hx.2]
  exact hy

theorem disciplines_addrFrame (n d a v : Byte) :
    csDiscipline false (addrFrame n d a v) = true ∧ wholePairs false (addrFrame n d a v) = true := by simp

theorem disciplines_bcastFrames (n a v : Byte) :
    csDiscipline false (bcastFrames n a v) = true ∧ wholePairs false (bcastFrames n a v) = true := by simp

theorem disciplines_settle (s : State) :
    csDiscipline false s.settle = true ∧ wholePairs false s.settle = true := ⟨rfl, rfl⟩

theorem disciplines_digitFrames (m : RegMap) (n d v : Byte) :
    csDiscipline false (digitFrames m n d v) = true ∧ wholePairs false (digitFrames m n d v) = true := by
  unfold digitFrames
  induction digitRegs with
  | nil => exact ⟨rfl, rfl⟩
  | cons r rs ih => rw [List.flatMap_cons]; exact disciplines_append (disciplines_addrFrame _ _ _ _) ih

theorem disciplines_allDigitFrames (m : RegMap) (n v : Byte) :
    csDiscipline false (allDigitFrames m n v) = true ∧ wholePairs false (allDigitFrames m n v) = true :=
  concatUp_induction (P := fun es => csDiscipline false es = true ∧ wholePairs false es = true) ⟨rfl, rfl⟩
    (fun _ _ h => disciplines_append (disciplines_digitFrames _ _ _ _) h) _ _

/-- What one arm of `exec` does: it accepts one answer. An answer with events has the status OK and the result 0
(spec/10_state.md R37), and an answer changes CHAIN_LEN only for a SET_CHAIN_LENGTH with n ≠ 0, which has no event. -/
def AcceptsOneAnswer (i : Instr) (s : State) : Prop :=
  ∃ r : Reply, exec i s = .next (accept r s)
    ∧ (r.events ≠ [] → r.status = .ok ∧ r.result = 0x00)
    ∧ (r.chainLen = s.chainLen
        ∨ ∃ n, n ≠ 0 ∧ i = .setChainLength n ∧ r = { status := .ok, result := n, events := [], chainLen := n })

theorem acceptsOneAnswer_play {i : Instr} {s : State} {evs : List BusEvent}
    (e : exec i s = .next (accept (Reply.play s evs) s)) : AcceptsOneAnswer i s :=
  ⟨_, e, fun _ => ⟨rfl, rfl⟩, .inl rfl⟩

theorem acceptsOneAnswer_raise {i : Instr} {s : State} {c : Status}
    (e : exec i s = .next (accept (Reply.raise s c) s)) : AcceptsOneAnswer i s :=
  ⟨_, e, fun h => absurd rfl h, .inl rfl⟩

theorem acceptsOneAnswer_onDevice {i : Instr} {s : State} {dev : Byte} {evs : List BusEvent}
    (e : exec i s = .next (accept (replyOnDevice s dev evs) s)) : AcceptsOneAnswer i s := by
  rcases replyOnDevice_cases s dev evs with ⟨_, h⟩ | ⟨_, h⟩ <;> rw [h] at e
  exacts [acceptsOneAnswer_play e, acceptsOneAnswer_raise e]

theorem acceptsOneAnswer_onDigit {i : Instr} {s : State} {dev digit : Byte} {evs : RegName → List BusEvent}
    (e : exec i s = .next (accept (replyOnDigit s dev digit evs) s)) : AcceptsOneAnswer i s := by
  unfold replyOnDigit at e
  split at e
  · exact acceptsOneAnswer_raise e
  · exact acceptsOneAnswer_onDevice e

/-- Every arm of `exec` accepts one answer. -/
theorem exec_accepts (i : Instr) (s : State) : AcceptsOneAnswer i s := by
  cases i with
  | addressedWrite d r v => exact acceptsOneAnswer_onDevice rfl
  | broadcastWrite r v => exact acceptsOneAnswer_play rfl
  | configure d dm inten sl => exact acceptsOneAnswer_onDevice rfl
  | configureAll dm inten sl => exact acceptsOneAnswer_play rfl
  | enable d => exact acceptsOneAnswer_onDevice rfl
  | disable d => exact acceptsOneAnswer_onDevice rfl
  | enableAll => exact acceptsOneAnswer_play rfl
  | disableAll => exact acceptsOneAnswer_play rfl
  | setTestMode => exact acceptsOneAnswer_play rfl
  | clearTestMode => exact acceptsOneAnswer_play rfl
  | writeDigit d k v => exact acceptsOneAnswer_onDigit rfl
  | clearDigit d k => exact acceptsOneAnswer_onDigit rfl
  | fillDevice d => exact acceptsOneAnswer_onDevice rfl
  | clearDevice d => exact acceptsOneAnswer_onDevice rfl
  | fillAll => exact acceptsOneAnswer_play rfl
  | clearAll => exact acceptsOneAnswer_play rfl
  | setChainLength n =>
    by_cases hn : n = 0
    · exact acceptsOneAnswer_raise (c := .invalidDevice) (by simp [exec, execSetChainLength, hn])
    · exact ⟨_, by simp only [exec, execSetChainLength, if_neg hn], fun hne => absurd rfl hne, .inr ⟨n, hn, rfl, rfl⟩⟩

end Sys2Proof.Machine
end

