-- ==== Sys2Proof/Laws/PerInstr.lean ====
section
/-! SUPPORT. Laws/PerInstr.lean: a family of statements about the instruction as syntax, one lemma per constructor. -/

namespace Sys2Proof.Laws

/-- The row of the opcode map an instruction belongs to (spec/30_encoding.md R84). -/
def rowOf : Instr → OpcodeRow
  | .addressedWrite _ _ _ => rowAddressedWrite
  | .broadcastWrite _ _ => rowBroadcastWrite
  | .configure _ _ _ _ => rowConfigure
  | .configureAll _ _ _ => rowConfigureAll
  | .enable _ => rowEnable
  | .disable _ => rowDisable
  | .enableAll => rowEnableAll
  | .disableAll => rowDisableAll
  | .setTestMode => rowSetTestMode
  | .clearTestMode => rowClearTestMode
  | .writeDigit _ _ _ => rowWriteDigit
  | .clearDigit _ _ => rowClearDigit
  | .fillDevice _ => rowFillDevice
  | .clearDevice _ => rowClearDevice
  | .fillAll => rowFillAll
  | .clearAll => rowClearAll
  | .setChainLength _ => rowSetChainLength

/-- The family EncodeFitsRow: the word of an instruction has every fixed bit of its row of the opcode map, the
reserved-zero bits among them (R84, R87). -/
def EncodeFitsRow.Statement (i : Instr) : Prop := encode i &&& (rowOf i).mask = (rowOf i).pattern

theorem EncodeFitsRow.addressedWrite (dev : Byte) (reg : RegName) (val : Byte) :
    EncodeFitsRow.Statement (.addressedWrite dev reg val) := by
  apply BitVec.eq_of_getLsbD_eq
  intro i hi
  interval_cases i <;> simp [encode, gridWord, regByte, rowOf, rowAddressedWrite]

theorem EncodeFitsRow.broadcastWrite (reg : RegName) (val : Byte) :
    EncodeFitsRow.Statement (.broadcastWrite reg val) := by
  apply BitVec.eq_of_getLsbD_eq
  intro i hi
  interval_cases i <;> simp [encode, gridWord, regByte, rowOf, rowBroadcastWrite]

theorem EncodeFitsRow.configure (dev dm : Byte) (inten : BitVec 4) (sl : BitVec 3) :
    EncodeFitsRow.Statement (.configure dev dm inten sl) := by
  apply BitVec.eq_of_getLsbD_eq
  intro i hi
  interval_cases i <;> simp [encode, gridWord, scanIntensityByte, rowOf, rowConfigure]

theorem EncodeFitsRow.configureAll (dm : Byte) (inten : BitVec 4) (sl : BitVec 3) :
    EncodeFitsRow.Statement (.configureAll dm inten sl) := by
  apply BitVec.eq_of_getLsbD_eq
  intro i hi
  interval_cases i <;> simp [encode, gridWord, scanIntensityByte, rowOf, rowConfigureAll]

theorem EncodeFitsRow.enable (dev : Byte) : EncodeFitsRow.Statement (.enable dev) := by
  apply BitVec.eq_of_getLsbD_eq
  intro i hi
  interval_cases i <;> simp [encode, gridWord, rowOf, rowEnable]

theorem EncodeFitsRow.disable (dev : Byte) : EncodeFitsRow.Statement (.disable dev) := by
  apply BitVec.eq_of_getLsbD_eq
  intro i hi
  interval_cases i <;> simp [encode, gridWord, rowOf, rowDisable]

theorem EncodeFitsRow.enableAll : EncodeFitsRow.Statement .enableAll := by
  show _ = _
  decide

theorem EncodeFitsRow.disableAll : EncodeFitsRow.Statement .disableAll := by
  show _ = _
  decide

theorem EncodeFitsRow.setTestMode : EncodeFitsRow.Statement .setTestMode := by
  show _ = _
  decide

theorem EncodeFitsRow.clearTestMode : EncodeFitsRow.Statement .clearTestMode := by
  show _ = _
  decide

theorem EncodeFitsRow.writeDigit (dev digit val : Byte) :
    EncodeFitsRow.Statement (.writeDigit dev digit val) := by
  apply BitVec.eq_of_getLsbD_eq
  intro i hi
  interval_cases i <;> simp [encode, gridWord, rowOf, rowWriteDigit]

theorem EncodeFitsRow.clearDigit (dev digit : Byte) : EncodeFitsRow.Statement (.clearDigit dev digit) := by
  apply BitVec.eq_of_getLsbD_eq
  intro i hi
  interval_cases i <;> simp [encode, gridWord, rowOf, rowClearDigit]

theorem EncodeFitsRow.fillDevice (dev : Byte) : EncodeFitsRow.Statement (.fillDevice dev) := by
  apply BitVec.eq_of_getLsbD_eq
  intro i hi
  interval_cases i <;> simp [encode, gridWord, rowOf, rowFillDevice]

theorem EncodeFitsRow.clearDevice (dev : Byte) : EncodeFitsRow.Statement (.clearDevice dev) := by
  apply BitVec.eq_of_getLsbD_eq
  intro i hi
  interval_cases i <;> simp [encode, gridWord, rowOf, rowClearDevice]

theorem EncodeFitsRow.fillAll : EncodeFitsRow.Statement .fillAll := by
  show _ = _
  decide

theorem EncodeFitsRow.clearAll : EncodeFitsRow.Statement .clearAll := by
  show _ = _
  decide

theorem EncodeFitsRow.setChainLength (n : Byte) : EncodeFitsRow.Statement (.setChainLength n) := by
  apply BitVec.eq_of_getLsbD_eq
  intro i hi
  interval_cases i <;> simp [encode, gridWord, rowOf, rowSetChainLength]

end Sys2Proof.Laws
end

