-- ==== Sys2Proof/Tests/Slice0.lean ====
section
/-! SUPPORT. Tests/Slice0.lean: our own tests. Expected words, events and states are the spec's (spec/30_encoding.md R94
and R95, spec/95_test_vectors.md and the worked examples of the command rules); the bit-by-bit words are written out from
the field grid of R74 to R82. The last part shows, for every obligation with hypotheses, that something meets them. -/

namespace Sys2Proof.Tests

open Sys2Proof Sys2Proof.Machine

/-! ### Written commands: one ill-formed line for each check (R92) -/

theorem test_wellFormed_accepts_the_source_operands :
    (AsmLine.mk "ADDRESSED_WRITE" [.num 3, .name "INTENSITY", .num 0x08]).wellFormed = true
      ∧ (AsmLine.mk "CONFIGURE" [.num 0, .num 255, .num 15, .num 7]).wellFormed = true
      ∧ (AsmLine.mk "WRITE_DIGIT" [.num 0, .num 9, .num 0]).wellFormed = true
      ∧ (AsmLine.mk "SET_CHAIN_LENGTH" [.num 0]).wellFormed = true := by decide

theorem test_wellFormed_refuses_unknown_mnemonic : (AsmLine.mk "NOP" []).wellFormed = false := by decide
theorem test_wellFormed_refuses_missing_operand : (AsmLine.mk "ENABLE" []).wellFormed = false := by decide
theorem test_wellFormed_refuses_extra_operand : (AsmLine.mk "FILL_ALL" [.num 1]).wellFormed = false := by decide
theorem test_wellFormed_refuses_wide_byte : (AsmLine.mk "ENABLE" [.num 256]).wellFormed = false := by decide
theorem test_wellFormed_refuses_wide_intensity :
    (AsmLine.mk "CONFIGURE" [.num 1, .num 0, .num 16, .num 7]).wellFormed = false := by decide
theorem test_wellFormed_refuses_wide_scan_limit :
    (AsmLine.mk "CONFIGURE_ALL" [.num 0, .num 8, .num 8]).wellFormed = false := by decide
theorem test_wellFormed_refuses_unknown_register :
    (AsmLine.mk "BROADCAST_WRITE" [.name "DIGIT_8", .num 1]).wellFormed = false := by decide
theorem test_wellFormed_refuses_number_for_register :
    (AsmLine.mk "BROADCAST_WRITE" [.num 13, .num 1]).wellFormed = false := by decide
theorem test_wellFormed_refuses_name_for_number :
    (AsmLine.mk "ENABLE" [.name "SHUTDOWN"]).wellFormed = false := by decide

/-- Each range's highest value is spelled, as it is written (R92). -/
theorem test_spells_highest_values :
    Spells ⟨"CONFIGURE", [.num 255, .num 255, .num 15, .num 7]⟩ (.configure 255 255 15 7) :=
  .configure (by decide) (by decide) (by decide) (by decide)

/-- R90's syntax and R94's words. -/
theorem test_assembler_words :
    assembleLine "ADDRESSED_WRITE 3, INTENSITY, 0x08" = .ok (some 0x08030A08#32)
      ∧ assembleLine "CONFIGURE 2, 0x00, 8, 7 ; R94" = .ok (some 0x18020078#32)
      ∧ assembleLine "  CLEAR_ALL  " = .ok (some 0x80000000#32)
      ∧ assembleLine "; only a comment" = .ok none := by decide

theorem test_assembler_refuses :
    assembleLine "HALT" = .error .unknownMnemonic
      ∧ assembleLine "ENABLE 256" = .error .operandsDoNotFit
      ∧ assembleLine "ENABLE 1x" = .error .badOperand := by decide

/-! ### Decoding: one word for each command (R94), each format bit by bit (R74 to R82) -/

theorem test_decode_addressedWrite : decode 0x08030A08#32 = .ok (.addressedWrite 3 .intensity 0x08) := by decide
theorem test_decode_broadcastWrite : decode 0x10000D01#32 = .ok (.broadcastWrite .displayTest 1) := by decide
theorem test_decode_configure : decode 0x1801FF0F#32 = .ok (.configure 1 0xFF 15 0) := by decide
theorem test_decode_configureAll : decode 0x20000037#32 = .ok (.configureAll 0x00 7 3) := by decide
theorem test_decode_enable : decode 0x28010000#32 = .ok (.enable 1) := by decide
theorem test_decode_disable : decode 0x30010000#32 = .ok (.disable 1) := by decide
theorem test_decode_enableAll : decode 0x38000000#32 = .ok .enableAll := by decide
theorem test_decode_disableAll : decode 0x40000000#32 = .ok .disableAll := by decide
theorem test_decode_setTestMode : decode 0x48000000#32 = .ok .setTestMode := by decide
theorem test_decode_clearTestMode : decode 0x50000000#32 = .ok .clearTestMode := by decide
theorem test_decode_writeDigit : decode 0x580201FF#32 = .ok (.writeDigit 2 1 0xFF) := by decide
theorem test_decode_clearDigit : decode 0x60020100#32 = .ok (.clearDigit 2 1) := by decide
theorem test_decode_fillDevice : decode 0x68020000#32 = .ok (.fillDevice 2) := by decide
theorem test_decode_clearDevice : decode 0x70020000#32 = .ok (.clearDevice 2) := by decide
theorem test_decode_fillAll : decode 0x78000000#32 = .ok .fillAll := by decide
theorem test_decode_clearAll : decode 0x80000000#32 = .ok .clearAll := by decide
theorem test_decode_setChainLength : decode 0x88000003#32 = .ok (.setChainLength 3) := by decide

/-- Format R: OP, Z, DEV, four zero bits, REG, VAL (R77). Format B: the same with DEV = 0 (R78). -/
theorem test_bits_chain_primitives :
    decode (0b00001#5 ++ 0b000#3 ++ 0b00000010#8 ++ 0b0000#4 ++ 0b0001#4 ++ 0b11111111#8)
        = .ok (.addressedWrite 2 .digit0 0xFF)
      ∧ decode (0b00010#5 ++ 0b000#3 ++ 0b00000000#8 ++ 0b0000#4 ++ 0b1100#4 ++ 0b00000001#8)
        = .ok (.broadcastWrite .shutdown 1) := by decide

/-- Formats C and C0: DM, one zero bit, SL, IN (R81). Formats D, N and L (R76, R75, R82). -/
theorem test_bits_configuration :
    decode (0b00011#5 ++ 0b000#3 ++ 0b00000001#8 ++ 0b11111110#8 ++ 0b0#1 ++ 0b011#3 ++ 0b1001#4)
        = .ok (.configure 1 0xFE 9 3)
      ∧ decode (0b00100#5 ++ 0b000#3 ++ 0b00000000#8 ++ 0b10000001#8 ++ 0b0#1 ++ 0b101#3 ++ 0b0010#4)
        = .ok (.configureAll 0x81 2 5)
      ∧ decode (0b00101#5 ++ 0b000#3 ++ 0b10000001#8 ++ 0#16) = .ok (.enable 129)
      ∧ decode (0b01001#5 ++ 0#27) = .ok .setTestMode
      ∧ decode (0b10001#5 ++ 0b000#3 ++ 0#16 ++ 0b11111111#8) = .ok (.setChainLength 255) := by decide

/-- Format G: DEV, DIGIT, VAL; format G0: the same with VAL = 0 (R79). -/
theorem test_bits_digit_buffer :
    decode (0b01011#5 ++ 0b000#3 ++ 0b00000010#8 ++ 0b00001000#8 ++ 0b01111110#8) = .ok (.writeDigit 2 8 0x7E)
      ∧ decode (0b01100#5 ++ 0b000#3 ++ 0b00000011#8 ++ 0b00001000#8 ++ 0#8) = .ok (.clearDigit 3 8)
      ∧ decode (0b01101#5 ++ 0b000#3 ++ 0b00000001#8 ++ 0#16) = .ok (.fillDevice 1) := by decide

/-- Words that spell no command, by their reasons (R85 to R87, R95, spec/95_test_vectors.md 2.1). -/
theorem test_decode_reserved_opcodes :
    ∀ w ∈ [0x00000000#32, 0x90000000#32, 0xF8000000#32], decode w = .error .reservedOpcode := by
  simp only [List.forall_mem_cons, List.not_mem_nil, false_implies, implies_true, and_true]
  decide
theorem test_decode_reserved_bits :
    ∀ w ∈ [0x29000000#32, 0x28010001#32, 0x60020101#32, 0x10010D01#32, 0x18010080#32, 0x20000088#32, 0x20010078#32,
      0x38000001#32, 0x88000100#32, 0x89000003#32, 0x7000FF00#32], decode w = .error .reservedBits := by
  simp only [List.forall_mem_cons, List.not_mem_nil, false_implies, implies_true, and_true]
  decide
theorem test_decode_reserved_registers :
    ∀ w ∈ [0x08010E00#32, 0x08010F00#32, 0x10000E00#32], decode w = .error .reservedRegister := by
  simp only [List.forall_mem_cons, List.not_mem_nil, false_implies, implies_true, and_true]
  decide

/-! ### One command from the port: the vectors of spec/95_test_vectors.md §1 and §2 -/

/-- A device with one byte everywhere. -/
def deviceOf (b : Byte) : Device where
  a := .known b
  d := .known b
  regs :=
    { digit0 := .known b, digit1 := .known b, digit2 := .known b, digit3 := .known b, digit4 := .known b,
      digit5 := .known b, digit6 := .known b, digit7 := .known b, decodeMode := .known b, intensity := .known b,
      scanLimit := .known b, shutdown := .known b, displayTest := .known b }

/-- An idle block with CHAIN_LEN = n and the default parameters, and `k` devices that hold 0x05 everywhere. -/
def idleBlock (n : Byte) (k : Nat) : State :=
  { State.powerOn { Params.default with nPhys := .ofNat 8 k } with
    chainLen := n, chain := List.replicate k (deviceOf 0x05) }

/-- The block in the middle of a command: these events pending, the line at this level. -/
def running (n : Byte) (k : Nat) (cs : Bool) (evs : List BusEvent) : State :=
  { idleBlock n k with busy := true, csAsserted := cs, pending := evs }

/-- One frame with these bytes. -/
def frame (bs : List Byte) : List BusEvent := .sel true :: bs.map .tx ++ [.sel false]

/-- What one accepted word answers at CHAIN_LEN = n: its status, its result, the new CHAIN_LEN and its events. -/
def answer (n : Byte) (w : Nat) : Option (Status × Byte × Byte × List BusEvent) :=
  match step ((idleBlock n 1).withFetchWord 32 w) with
  | .next t =>
    if t.busy then some (t.pendStatus, t.pendResult, t.chainLen, t.pending)
    else some (t.status, t.result, t.chainLen, t.pending)
  | _ => none

theorem test_addressedWrite :
    answer 3 0x08030A08 = some (.ok, 0, 3, frame [0x0A, 0x08, 0, 0, 0, 0])
      ∧ answer 3 0x08020A20 = some (.ok, 0, 3, frame [0, 0, 0x0A, 0x20, 0, 0])
      ∧ answer 3 0x08010C01 = some (.ok, 0, 3, frame [0, 0, 0, 0, 0x0C, 0x01])
      ∧ answer 3 0x08000C01 = some (.invalidDevice, 0, 3, [])
      ∧ answer 3 0x08040C01 = some (.invalidDevice, 0, 3, []) :=
  ⟨by decide, by decide, by decide, by decide, by decide⟩
theorem test_broadcastWrite :
    answer 3 0x10000881 = some (.ok, 0, 3, frame [0x08, 0x81] ++ frame [0x08, 0x81] ++ frame [0x08, 0x81]) := by decide
theorem test_configure :
    answer 2 0x18020078 = some (.ok, 0, 2, frame [0x09, 0, 0, 0] ++ [.delay 1] ++ frame [0x0A, 8, 0, 0] ++ [.delay 1]
        ++ frame [0x0B, 7, 0, 0])
      ∧ answer 3 0x18000078 = some (.invalidDevice, 0, 3, []) := by decide
theorem test_configureAll :
    answer 2 0x20000078 = some (.ok, 0, 2, frame [0x09, 0] ++ frame [0x09, 0] ++ [.delay 1] ++ frame [0x0A, 8]
        ++ frame [0x0A, 8] ++ [.delay 1] ++ frame [0x0B, 7] ++ frame [0x0B, 7]) := by decide
theorem test_enable :
    answer 3 0x28030000 = some (.ok, 0, 3, frame [0x0C, 1, 0, 0, 0, 0])
      ∧ answer 3 0x28000000 = some (.invalidDevice, 0, 3, []) := by decide
theorem test_disable :
    answer 2 0x30020000 = some (.ok, 0, 2, frame [0x0C, 0, 0, 0])
      ∧ answer 1 0x30020000 = some (.invalidDevice, 0, 1, []) := by decide
theorem test_enableAll : answer 2 0x38000000 = some (.ok, 0, 2, frame [0x0C, 1] ++ frame [0x0C, 1]) := by decide
theorem test_disableAll : answer 1 0x40000000 = some (.ok, 0, 1, frame [0x0C, 0]) := by decide
theorem test_setTestMode : answer 2 0x48000000 = some (.ok, 0, 2, frame [0x0F, 1] ++ frame [0x0F, 1]) := by decide
theorem test_clearTestMode : answer 1 0x50000000 = some (.ok, 0, 1, frame [0x0F, 0]) := by decide
theorem test_writeDigit :
    answer 3 0x580201FF = some (.ok, 0, 3, frame [0, 0, 1, 0xFF, 0, 0])
      ∧ answer 3 0x5802087E = some (.ok, 0, 3, frame [0, 0, 8, 0x7E, 0, 0])
      ∧ answer 3 0x58010055 = some (.invalidDigit, 0, 3, [])
      ∧ answer 3 0x58020955 = some (.invalidDigit, 0, 3, [])
      ∧ answer 3 0x5800FF55 = some (.invalidDigit, 0, 3, [])
      ∧ answer 3 0x58000155 = some (.invalidDevice, 0, 3, []) :=
  ⟨by decide, by decide, by decide, by decide, by decide, by decide⟩
theorem test_clearDigit :
    answer 3 0x60030800 = some (.ok, 0, 3, frame [8, 0, 0, 0, 0, 0])
      ∧ answer 3 0x60090900 = some (.invalidDigit, 0, 3, []) := by decide
theorem test_fillDevice :
    answer 2 0x68010000 = some (.ok, 0, 2,
        [1, 2, 3, 4, 5, 6, 7, 8].flatMap (fun k => frame [0, 0, k, 0xFF]))
      ∧ answer 2 0x68030000 = some (.invalidDevice, 0, 2, []) := by decide
theorem test_clearDevice :
    answer 2 0x70020000 = some (.ok, 0, 2,
      [1, 2, 3, 4, 5, 6, 7, 8].flatMap (fun k => frame [k, 0, 0, 0])) := by decide
theorem test_fillAll :
    answer 2 0x78000000 = some (.ok, 0, 2,
      [1, 2, 3, 4, 5, 6, 7, 8].flatMap (fun k => frame [0, 0, k, 0xFF])
        ++ [1, 2, 3, 4, 5, 6, 7, 8].flatMap (fun k => frame [k, 0xFF, 0, 0])) := by decide
theorem test_clearAll :
    answer 1 0x80000000 = some (.ok, 0, 1, [1, 2, 3, 4, 5, 6, 7, 8].flatMap (fun k => frame [k, 0])) := by decide
theorem test_setChainLength :
    answer 3 0x880000FF = some (.ok, 255, 255, []) ∧ answer 3 0x88000000 = some (.invalidDevice, 0, 3, []) := by decide

/-- IllegalCommand comes before InvalidDigit, which comes before InvalidDevice (spec/95_test_vectors.md 2.5). -/
theorem test_error_precedence :
    answer 3 0x59000901 = some (.illegalCommand, 0, 3, [])
      ∧ answer 3 0x60000901 = some (.illegalCommand, 0, 3, [])
      ∧ answer 3 0x58000901 = some (.invalidDigit, 0, 3, [])
      ∧ answer 3 0x58000101 = some (.invalidDevice, 0, 3, []) :=
  ⟨by decide, by decide, by decide, by decide⟩

/-! ### The sequencer, reset, the devices and the wire, one step each -/

/-- The state after one step with these pins. -/
def stepWith (p : Pins) (s : State) : State :=
  match step { s with inputs := [p] } with
  | .next t => t
  | _ => s

/-- V-SEQ-1's rows "ack S+" and "ack S- (complete)". -/
theorem test_emit :
    ((stepWith .ack (running 1 1 false (frame [1, 0xFF]))).csAsserted,
        (stepWith .ack (running 1 1 false (frame [1, 0xFF]))).pending) = (true, [.tx 1, .tx 0xFF, .sel false])
      ∧ (stepWith .ack (running 1 1 true [.sel false])).statusPort
        = { busy := false, status := 0, result := 0, chainLen := 1 } := by decide

/-- V-SEQ-5: without an acknowledgement the first event stays presented. -/
theorem test_hang :
    (stepWith .quiet (running 1 1 false (frame [1, 0xFF]))).presented = some (.sel true) := by decide

/-- V-RST-2 and V-RST-3: reset in mid-frame, and reset in the step of an acceptance. -/
theorem test_reset :
    ((stepWith .reset (running 2 2 true [.tx 0, .tx 0x0C, .tx 1, .sel false])).csN,
        (stepWith .reset (running 2 2 true [.tx 0, .tx 0x0C, .tx 1, .sel false])).statusPort,
        (stepWith .reset (running 2 2 true [.tx 0, .tx 0x0C, .tx 1, .sel false])).emitted)
        = (true, { busy := false, status := 0, result := 0, chainLen := 1 }, [])
      ∧ (stepWith { Pins.command 0x78000000 with rst := true } (idleBlock 3 1)).cmdReady = true := by decide

/-- R62's shift and V-CH-5's latch: device 1 takes DIGIT_0 = 0x11, device 3 the SHUTDOWN pair it was passed, and device
2's no-op pair writes nothing. -/
theorem test_chain :
    (shiftIn (.known 9) [deviceOf 1, deviceOf 2]).map (fun dev => (dev.a, dev.d))
        = [(.known 1, .known 9), (.known 2, .known 1)]
      ∧ (latchAll RegMap.default 0
          [{ deviceOf 0 with a := .known 0x01, d := .known 0x11 }, { deviceOf 0 with a := .known 0, d := .known 0 },
           { deviceOf 0 with a := .known 0x0C, d := .known 0x01 }]).map Device.regs
        = [(deviceOf 0).regs.write .digit0 (.known 0x11), (deviceOf 0).regs,
           (deviceOf 0).regs.write .shutdown (.known 0x01)] := by decide

/-- R57's defaults: most significant bit first, sampled on the rising edge. -/
theorem test_wire :
    sampledBits true false false (wireTrace Params.default [.tx 0xA1])
      = [true, false, true, false, false, false, false, true] := by decide

/-! ### Witnesses: something meets the hypotheses of each obligation -/

/-- The block in these states meets the invariant, with one device or two. -/
theorem idleBlock_inv_1 : (idleBlock 1 1).Inv := ⟨by decide, by decide, by decide, by decide, by decide⟩
theorem idleBlock_inv_2 : (idleBlock 2 2).Inv := ⟨by decide, by decide, by decide, by decide, by decide⟩
/-- CHAIN_LEN 2 with one device, and CHAIN_LEN 1 with two (R68). -/
theorem idleBlock_inv_short : (idleBlock 2 1).Inv := ⟨by decide, by decide, by decide, by decide, by decide⟩
theorem idleBlock_inv_long : (idleBlock 1 2).Inv := ⟨by decide, by decide, by decide, by decide, by decide⟩
theorem running_inv : (running 2 2 true [.tx 9, .sel false]).Inv :=
  ⟨by decide, by decide, by decide, by decide, by decide⟩

/-- The state with these pins next. -/
def withPins (ps : List Pins) (s : State) : State := { s with inputs := ps }

theorem witness_EncodeOfDecode : ∃ i, decode 0x08030A08#32 = .ok i := ⟨_, test_decode_addressedWrite⟩
/-- The reserved opcodes at their ends (0x00, 0x12, 0x1F), the lowest and the highest bit a row fixes, codes 14 and 15. -/
theorem witness_RejectedWordsAreNamed :
    ((0#32).extractLsb' 27 5 = 0#5)
      ∧ 0x12 ≤ ((0x90000000#32).extractLsb' 27 5).toNat ∧ 0x12 ≤ ((0xF8000000#32).extractLsb' 27 5).toNat
      ∧ (rowEnable ∈ opcodeMap ∧ (0x28010001#32).extractLsb' 27 5 = rowEnable.pattern.extractLsb' 27 5
          ∧ 0x28010001#32 &&& rowEnable.mask ≠ rowEnable.pattern)
      ∧ (rowSetChainLength ∈ opcodeMap
          ∧ (0x8C000000#32).extractLsb' 27 5 = rowSetChainLength.pattern.extractLsb' 27 5
          ∧ 0x8C000000#32 &&& rowSetChainLength.mask ≠ rowSetChainLength.pattern)
      ∧ (0x08010E00#32 &&& 0xFF00F000#32 = 0x08000000#32 ∧ 14 ≤ ((0x08010E00#32).extractLsb' 8 4).toNat)
      ∧ (0x10000F00#32 &&& 0xFFFFF000#32 = 0x10000000#32 ∧ 14 ≤ ((0x10000F00#32).extractLsb' 8 4).toNat) := by decide

/-- An idle block that is offered FILL_ALL. -/
def offered : State := withPins [.command 0x78000000] (idleBlock 2 2)

theorem witness_StepRunsTheDecodedCommand :
    offered.nextPins.rst = false ∧ offered.nextPins.cmdValid = true ∧ offered.busy = false
      ∧ decode offered.nextPins.cmdWord = .ok .fillAll := by decide
theorem witness_IllegalWordOnlyReportsIllegalCommand :
    (withPins [.command 0] (idleBlock 2 2)).nextPins.rst = false
      ∧ (withPins [.command 0] (idleBlock 2 2)).nextPins.cmdValid = true
      ∧ (withPins [.command 0] (idleBlock 2 2)).busy = false
      ∧ decode (withPins [.command 0] (idleBlock 2 2)).nextPins.cmdWord = .error .reservedOpcode := by decide
theorem witness_BusyBlockIgnoresTheCommandPort :
    let s := withPins [⟨false, true, 0x78000000, true⟩, ⟨false, true, 0x78000000, false⟩] (running 2 2 true [.sel false])
    s.busy = true ∧ s.pending = [.sel false] ∧ decode 0x78000000#32 = .ok .fillAll
      ∧ s.inputs = { rst := false, cmdValid := true, cmdWord := 0x78000000, evAck := true }
          :: { rst := false, cmdValid := true, cmdWord := 0x78000000, evAck := false } :: [] := by decide
/-- A BUSY block without an acknowledgement, and an idle block without a word. -/
theorem witness_NothingEnabledNothingChanges :
    ((running 2 2 false [.sel true]).nextPins.rst = false ∧ (running 2 2 false [.sel true]).busy = true
        ∧ (running 2 2 false [.sel true]).nextPins.evAck = false)
      ∧ ((idleBlock 2 2).nextPins.rst = false ∧ (idleBlock 2 2).busy = false
        ∧ (idleBlock 2 2).nextPins.cmdValid = false) := by decide
/-- The last event, and one before it. -/
theorem witness_AcknowledgementEmitsTheHead :
    ∀ evs ∈ [[BusEvent.sel false], [.tx 9, .sel false], [.sel true, .sel false], [.delay 1, .sel true, .sel false]],
      ∃ e es, (withPins [.ack] (running 2 2 true evs)).pending = e :: es
        ∧ (withPins [.ack] (running 2 2 true evs)).nextPins.rst = false
        ∧ (withPins [.ack] (running 2 2 true evs)).nextPins.evAck = true
        ∧ (withPins [.ack] (running 2 2 true evs)).busy = true := by
  simp [withPins, running, State.nextPins, Pins.ack]
theorem witness_ChipSelectFollowsAcknowledgedSel :
    (withPins [.ack] (running 2 2 true [.sel false])).nextPins.rst = false
      ∧ step (withPins [.ack] (running 2 2 true [.sel false])) = .next (stepWith .ack (running 2 2 true [.sel false])) :=
  ⟨by decide, rfl⟩
theorem witness_ResetReturnsEveryBlockRegister :
    (withPins [.reset] (running 2 2 true [.sel false])).nextPins.rst = true := by decide
/-- Outside a frame and inside one; and a byte of a device after the latter. -/
theorem witness_ResetTouchesDevicesOnlyInAFrame :
    ((withPins [.reset] (idleBlock 2 2)).nextPins.rst = true ∧ (idleBlock 2 2).csAsserted = false
        ∧ step (withPins [.reset] (idleBlock 2 2)) = .next (stepWith .reset (idleBlock 2 2)))
      ∧ ((withPins [.reset] (running 2 2 true [.sel false])).nextPins.rst = true
        ∧ (running 2 2 true [.sel false]).csAsserted = true
        ∧ step (withPins [.reset] (running 2 2 true [.sel false]))
            = .next (stepWith .reset (running 2 2 true [.sel false]))
        ∧ freeDevice 30 ∈ (stepWith .reset { running 2 2 true [.sel false] with draws := 30 }).chain
        ∧ (freeDevice 30).regs.read .digit0 = some (.unknown 32)) :=
  ⟨⟨by decide, by decide, rfl⟩, by decide, by decide, rfl, by decide, by decide⟩
theorem witness_ResetStateHoldsTheResetValues :
    freeDevice 0 ∈ State.reset.chain ∧ (freeDevice 0).regs.read .displayTest = some (.unknown 14) := by decide
theorem witness_PowerOnMeetsTheInvariant :
    paramsLegal { Params.default with chainLenReset := 255, nPhys := 255, tSettleUs := 7 } := by decide
theorem witness_StepKeepsTheInvariant :
    (idleBlock 2 2).Inv ∧ step (idleBlock 2 2) = .next (stepWith .quiet (idleBlock 2 2))
      ∧ (running 2 2 true [.tx 9, .sel false]).Inv
      ∧ step (running 2 2 true [.tx 9, .sel false]) = .next (stepWith .quiet (running 2 2 true [.tx 9, .sel false])) :=
  ⟨idleBlock_inv_2, rfl, running_inv, rfl⟩
theorem witness_DeviceContentsAreNeverRead : step offered = .next (stepWith (.command 0x78000000) (idleBlock 2 2)) := rfl
theorem witness_EmissionKeepsTheOrderOfAcceptance :
    step (withPins [.ack] (running 2 2 true [.sel false])) = .next (stepWith .ack (running 2 2 true [.sel false]))
      ∧ (withPins [.ack] (running 2 2 true [.sel false])).nextPins.rst = false
      ∧ (running 2 2 true [.sel false]).busy = true := ⟨rfl, by decide, by decide⟩
theorem witness_OnlySetChainLengthChangesTheChainLength :
    let s := withPins [.command 0x880000FF] (idleBlock 2 2)
    s.nextPins.rst = false ∧ step s = .next (stepWith (.command 0x880000FF) (idleBlock 2 2))
      ∧ (stepWith (.command 0x880000FF) (idleBlock 2 2)).chainLen ≠ s.chainLen := ⟨by decide, rfl, by decide⟩
/-- Device 1 holds a SHUTDOWN pair in its shift register and latches it at `Sel(false)`. -/
def aboutToLatch : State :=
  { running 1 1 true [.sel false] with chain := [{ deviceOf 0 with a := .known 0x0C, d := .known 0x01 }] }
theorem witness_DeviceRegistersChangeOnlyAtDeselection :
    step (withPins [.ack] aboutToLatch) = .next (stepWith .ack aboutToLatch)
      ∧ (stepWith .ack aboutToLatch).devReg 1 .shutdown ≠ (withPins [.ack] aboutToLatch).devReg 1 .shutdown :=
  ⟨rfl, by decide⟩
theorem witness_StatusIsWrittenOnlyAtCompletion :
    (withPins [.ack] (running 2 2 true [.sel false])).nextPins.rst = false
      ∧ step (withPins [.ack] (running 2 2 true [.sel false])) = .next (stepWith .ack (running 2 2 true [.sel false])) :=
  ⟨by decide, rfl⟩
theorem witness_AcknowledgedCommandPlaysOut :
    (running 2 2 false (frame [0, 0])).busy = true ∧ (running 2 2 false (frame [0, 0])).pending ≠ [] := by decide
/-- Two events, with waits, another offered word, and the last acknowledgement in the last step. -/
theorem witness_EveryScheduleReachesTheSameCompletion :
    let s := running 2 2 true [.tx 9, .sel false]
    let ps := [Pins.quiet, ⟨false, true, 0x78000000, true⟩, .command 0]
    s.busy = true ∧ s.pending ≠ [] ∧ (∀ p ∈ ps ++ [Pins.ack], p.rst = false) ∧ Pins.ack.evAck = true
      ∧ ((ps ++ [Pins.ack]).filter (fun p => p.evAck)).length = s.pending.length := by decide
/-- Two idle states that differ in their devices, status and result; a word with events and one without. -/
theorem witness_CommandDependsOnlyOnWordAndChainLength :
    let s := idleBlock 2 2
    let s' := { idleBlock 2 2 with chain := [], status := .illegalCommand, result := 7 }
    s.chainLen = s'.chainLen ∧ s.params = s'.params ∧ s.busy = false ∧ s'.busy = false ∧ s.pending = []
      ∧ s'.pending = [] ∧ runWord 0x78000000 s = .next (stepWith (.command 0x78000000) s)
      ∧ runWord 0x78000000 s' = .next (stepWith (.command 0x78000000) s')
      ∧ runWord 0x88000005 s = .next (stepWith (.command 0x88000005) s)
      ∧ (stepWith (.command 0x78000000) s).busy = true ∧ (stepWith (.command 0x88000005) s).busy = false :=
  ⟨by decide, by decide, by decide, by decide, by decide, by decide, rfl, rfl, rfl, by decide, by decide⟩

/-- Device numbers at both ends of a chain, of the longest chain too: for the frame statements (AddressedFrame…,
TargetPair…) and every statement on a device of the chain (AddressedWriteQueues…, ConfigureQueues…, EnableAndDisable…,
DigitWrites…, DeviceFills…, CommandEventCounts). -/
theorem witness_AddressedFrameGoesDownTheChain :
    (1 ≤ (1#8).toNat ∧ (1#8).toNat ≤ (1#8).toNat) ∧ (1 ≤ (1#8).toNat ∧ (1#8).toNat ≤ (255#8).toNat)
      ∧ (1 ≤ (255#8).toNat ∧ (255#8).toNat ≤ (255#8).toNat) := by decide
theorem witness_TargetPairStandsAtItsWirePosition :
    (1 ≤ (3#8).toNat ∧ (3#8).toNat ≤ (3#8).toNat ∧ 0 < (3#8).toNat) ∧ (1 ≤ (1#8).toNat ∧ 2 < (3#8).toNat) := by decide
theorem witness_onDevice :
    (1 ≤ (1#8).toNat ∧ (1#8).toNat ≤ (idleBlock 2 2).chainLen.toNat)
      ∧ (1 ≤ (2#8).toNat ∧ (2#8).toNat ≤ (idleBlock 2 2).chainLen.toNat) := by decide
theorem witness_AddressedWriteQueuesItsFrame :
    1 ≤ (2#8).toNat ∧ (2#8).toNat ≤ (idleBlock 2 2).chainLen.toNat := witness_onDevice.2
theorem witness_ConfigureQueuesThreeFramesAndTwoDelays :
    1 ≤ (2#8).toNat ∧ (2#8).toNat ≤ (idleBlock 2 2).chainLen.toNat := witness_onDevice.2
theorem witness_EnableAndDisableWriteShutdown :
    1 ≤ (1#8).toNat ∧ (1#8).toNat ≤ (idleBlock 2 2).chainLen.toNat := witness_onDevice.1
theorem witness_DeviceFillsQueueEightFrames :
    1 ≤ (1#8).toNat ∧ (1#8).toNat ≤ (idleBlock 2 2).chainLen.toNat := witness_onDevice.1
/-- The lowest and the highest digit. -/
theorem witness_DigitWritesQueueTheirFrame :
    (1 ≤ (2#8).toNat ∧ (2#8).toNat ≤ (idleBlock 2 2).chainLen.toNat)
      ∧ (1 ≤ (1#8).toNat ∧ (1#8).toNat ≤ 8 ∧ RegName.all[(1#8).toNat]? = some .digit0)
      ∧ (1 ≤ (8#8).toNat ∧ (8#8).toNat ≤ 8 ∧ RegName.all[(8#8).toNat]? = some .digit7) := by decide
/-- For BroadcastWriteQueues…, ConfigureAllQueues…, WholeChainSwitches… and ChainFillsGo…. -/
theorem witness_chainLen_ne_zero : (idleBlock 1 1).chainLen ≠ 0 ∧ (idleBlock 255 1).chainLen ≠ 0 := by decide
theorem witness_BroadcastWriteQueuesItsFrames : (idleBlock 1 1).chainLen ≠ 0 := witness_chainLen_ne_zero.1
theorem witness_ConfigureAllQueuesThreeBroadcasts : (idleBlock 1 1).chainLen ≠ 0 := witness_chainLen_ne_zero.1
theorem witness_WholeChainSwitchesAreBroadcasts : (idleBlock 255 1).chainLen ≠ 0 := witness_chainLen_ne_zero.2
theorem witness_ChainFillsGoDeviceByDevice : (idleBlock 255 1).chainLen ≠ 0 := witness_chainLen_ne_zero.2
theorem witness_SetChainLengthSetsAndReturns : (1#8) ≠ 0 ∧ (255#8) ≠ 0 := by decide
theorem witness_CommandsKeepTheChipSelectDiscipline :
    (idleBlock 2 2).pending = []
      ∧ exec .clearAll (idleBlock 2 2) = .next (stepWith (.command 0x80000000) (idleBlock 2 2)) := ⟨by decide, rfl⟩
/-- Both ends of the devices and of the digits, and each group of commands. -/
theorem witness_CommandEventCounts :
    (1 ≤ (1#8).toNat ∧ (1#8).toNat ≤ (idleBlock 2 2).chainLen.toNat ∧ 1 ≤ (8#8).toNat ∧ (8#8).toNat ≤ 8)
      ∧ (1 ≤ (2#8).toNat ∧ (2#8).toNat ≤ (idleBlock 2 2).chainLen.toNat ∧ 1 ≤ (1#8).toNat ∧ (1#8).toNat ≤ 8)
      ∧ exec (.enable 2) (idleBlock 2 2) = .next (stepWith (.command 0x28020000) (idleBlock 2 2))
      ∧ exec .enableAll (idleBlock 2 2) = .next (stepWith (.command 0x38000000) (idleBlock 2 2))
      ∧ exec (.configure 2 0 8 7) (idleBlock 2 2) = .next (stepWith (.command 0x18020078) (idleBlock 2 2))
      ∧ exec (.configureAll 0 8 7) (idleBlock 2 2) = .next (stepWith (.command 0x20000078) (idleBlock 2 2))
      ∧ exec (.fillDevice 1) (idleBlock 2 2) = .next (stepWith (.command 0x68010000) (idleBlock 2 2))
      ∧ exec .fillAll (idleBlock 2 2) = .next (stepWith (.command 0x78000000) (idleBlock 2 2))
      ∧ (idleBlock 2 2).pending = []
      ∧ exec (.setChainLength 255) (idleBlock 2 2) = .next (stepWith (.command 0x880000FF) (idleBlock 2 2))
      ∧ ((idleBlock 2 2).busy = false ∧ runWord 0x58000901 (idleBlock 2 2)
            = .next (stepWith (.command 0x58000901) (idleBlock 2 2))
        ∧ (if (stepWith (.command 0x58000901) (idleBlock 2 2)).busy
            then (stepWith (.command 0x58000901) (idleBlock 2 2)).pendStatus
            else (stepWith (.command 0x58000901) (idleBlock 2 2)).status) ≠ .ok) :=
  ⟨by decide, by decide, rfl, rfl, rfl, rfl, rfl, rfl, by decide, rfl, by decide, rfl, by decide⟩
/-- Device 0 and device N + 1, with the lowest and the highest digit. -/
theorem witness_InvalidDeviceEmitsNothing :
    ((0#8).toNat = 0 ∧ 1 ≤ (1#8).toNat ∧ (1#8).toNat ≤ 8)
      ∧ ((idleBlock 2 2).chainLen.toNat < (3#8).toNat ∧ 1 ≤ (8#8).toNat ∧ (8#8).toNat ≤ 8) := by decide
/-- Digits 1 and 8; digits 0, 9 and 255. -/
theorem witness_InvalidDigitComesFirst :
    (1 ≤ (1#8).toNat ∧ (1#8).toNat ≤ 8) ∧ (1 ≤ (8#8).toNat ∧ (8#8).toNat ≤ 8)
      ∧ (0#8).toNat = 0 ∧ 9 ≤ (9#8).toNat ∧ 9 ≤ (255#8).toNat := by decide
theorem witness_ErrorsHaveNoPartialEffect :
    let s := idleBlock 3 1
    (s.busy = false ∧ runWord 0x78000000 s = .next (stepWith (.command 0x78000000) s)
        ∧ (stepWith (.command 0x78000000) s).busy = true)
      ∧ Status.invalidDigit ≠ .ok ∧ runWord 0x58000901 s = .next (stepWith (.command 0x58000901) s)
      ∧ (stepWith (.command 0x58000901) s).completions = s.completions ++ [.invalidDigit] :=
  ⟨⟨by decide, rfl, by decide⟩, by decide, rfl, by decide⟩
theorem witness_EquivalentCommands :
    (1 ≤ (1#8).toNat ∧ (1#8).toNat ≤ 8 ∧ RegName.all[(1#8).toNat]? = some .digit0)
      ∧ (1 ≤ (8#8).toNat ∧ (8#8).toNat ≤ 8 ∧ RegName.all[(8#8).toNat]? = some .digit7) := by decide
/-- The lowest and the highest digit; every device number applies, those in the new chain and those outside it. -/
theorem witness_NextCommandSeesTheNewChainLength :
    (5#8) ≠ 0 ∧ (idleBlock 1 1).busy = false ∧ (idleBlock 1 1).pending = []
      ∧ (1 ≤ (1#8).toNat ∧ (1#8).toNat ≤ 8) ∧ (1 ≤ (8#8).toNat ∧ (8#8).toNat ≤ 8) := by decide
/-- CLEAR_DIGIT twice on a one-device chain, and a command that is an error both times. -/
theorem witness_RepeatedCommandDoesTheSame :
    let s := idleBlock 1 1
    let t := drain (stepWith (.command 0x60010100) s)
    (s.busy = false ∧ s.pending = [] ∧ t.chainLen = s.chainLen
        ∧ afterCommand (.clearDigit 1 1) s = some (drain (stepWith (.command 0x60010100) s))
        ∧ afterCommand (.clearDigit 1 1) t = some (drain (stepWith (.command 0x60010100) t)))
      ∧ (afterCommand (.enable 0) s).isSome = true :=
  ⟨⟨by decide, by decide, by decide, rfl, rfl⟩, by decide⟩
theorem witness_TransmittedByteShiftsTheChain :
    [deviceOf 1, deviceOf 2] ≠ [] ∧ [deviceOf 1, deviceOf 2][0]? = some (deviceOf 1)
      ∧ [deviceOf 1, deviceOf 2][0 + 1]? = some (deviceOf 2) := by decide
/-- The low nibbles 0, 1, 12, 13, 14 and 15, each behind a high nibble that the device ignores. -/
theorem witness_DeselectionLatchesByAddressNibble :
    (∀ x ∈ [0, 1, 12, 13, 14, 15],
        (lowNibble ({ deviceOf 0 with a := .known (.ofNat 8 (0x50 + x)) } : Device).a.value).toNat = x)
      ∧ RegName.all[1]? = some .digit0 ∧ RegName.all[12]? = some .shutdown
      ∧ (freeRegFile 7).read .digit0 = some (.unknown 7) := by decide

/-- What the device statements ask of an idle block on a chain of the configured length. -/
abbrev matchingChain (s : State) : Prop :=
  s.Inv ∧ s.busy = false ∧ regMapDecodable s.params.regAddr ∧ s.params.nPhys = s.chainLen
/-- A device number of the chain. -/
abbrev onChain (s : State) (d : Byte) : Prop := 1 ≤ d.toNat ∧ d.toNat ≤ s.chainLen.toNat

theorem matchingChain_1 : matchingChain (idleBlock 1 1) := ⟨idleBlock_inv_1, by decide, by decide, by decide⟩
theorem matchingChain_2 : matchingChain (idleBlock 2 2) := ⟨idleBlock_inv_2, by decide, by decide, by decide⟩

theorem witness_AddressedWriteReachesOnlyItsDevice :
    matchingChain (idleBlock 2 2) ∧ onChain (idleBlock 2 2) 1 ∧ onChain (idleBlock 2 2) 2 :=
  ⟨matchingChain_2, by decide, by decide⟩
theorem witness_ConfigureWritesItsThreeRegisters :
    matchingChain (idleBlock 2 2) ∧ onChain (idleBlock 2 2) 1 ∧ onChain (idleBlock 2 2) 2 :=
  ⟨matchingChain_2, by decide, by decide⟩
theorem witness_FillThenClearLeavesZeroDigits :
    matchingChain (idleBlock 2 2) ∧ onChain (idleBlock 2 2) 1 ∧ onChain (idleBlock 2 2) 2 :=
  ⟨matchingChain_2, by decide, by decide⟩
theorem witness_BroadcastAfterAddressedWriteAndItsFlush :
    matchingChain (idleBlock 2 2) ∧ onChain (idleBlock 2 2) 1 ∧ onChain (idleBlock 2 2) 2 :=
  ⟨matchingChain_2, by decide, by decide⟩
theorem witness_BroadcastReachesEveryDevice : matchingChain (idleBlock 1 1) ∧ matchingChain (idleBlock 2 2) :=
  ⟨matchingChain_1, matchingChain_2⟩
theorem witness_ChainFillsReachEveryDigit : matchingChain (idleBlock 1 1) ∧ matchingChain (idleBlock 2 2) :=
  ⟨matchingChain_1, matchingChain_2⟩
/-- Device 1 of this chain of two holds a no-op pair, which device 2 takes at CHAIN_LEN 1. -/
def idleNoOp : State := { idleBlock 1 2 with chain := [deviceOf 0, deviceOf 0x05] }
/-- A chain longer than CHAIN_LEN, whose device 2 takes what device 1 held, a register's pair or a no-op pair; and a
shorter one, whose target is beyond it. -/
theorem witness_AddressedWriteOnAMismatchedChain :
    ((idleBlock 1 2).Inv ∧ (idleBlock 1 2).busy = false ∧ regMapDecodable (idleBlock 1 2).params.regAddr
        ∧ 1 ≤ (1#8).toNat ∧ (1#8).toNat ≤ (idleBlock 1 2).chainLen.toNat
        ∧ (1#8).toNat ≤ (idleBlock 1 2).chain.length
        ∧ (idleBlock 1 2).chainLen.toNat < 2 ∧ 2 ≤ (idleBlock 1 2).chain.length
        ∧ (idleBlock 1 2).shiftReg (2 - (idleBlock 1 2).chainLen.toNat) = some (0x05, 0x05)
        ∧ RegName.digit4 ≠ .noOp
        ∧ lowNibble 0x05 = lowNibble ((idleBlock 1 2).params.regAddr.addr .digit4))
      ∧ (idleNoOp.Inv ∧ idleNoOp.busy = false ∧ idleNoOp.shiftReg (2 - idleNoOp.chainLen.toNat) = some (0x00, 0x00)
        ∧ lowNibble 0x00 = 0)
      ∧ ((idleBlock 2 1).Inv ∧ (idleBlock 2 1).busy = false ∧ regMapDecodable (idleBlock 2 1).params.regAddr
        ∧ 1 ≤ (2#8).toNat ∧ (2#8).toNat ≤ (idleBlock 2 1).chainLen.toNat
        ∧ (idleBlock 2 1).chain.length < (2#8).toNat) :=
  ⟨⟨idleBlock_inv_long, by decide, by decide, by decide, by decide, by decide, by decide, by decide, by decide,
    by decide, by decide⟩,
    ⟨⟨by decide, by decide, by decide, by decide, by decide⟩, by decide, by decide, by decide⟩, idleBlock_inv_short,
    by decide, by decide, by decide, by decide, by decide⟩
theorem witness_WireCarriesTheBytesInsideFrames :
    csDiscipline false (frame [0x0C, 0x01]) = true ∧ csDiscipline true [.tx 1, .sel false] = true := by decide

end Sys2Proof.Tests
end

section
/-! PROOFS. The chip-select line: what each operation of a step does to CS_ASSERTED (spec/10_state.md R29). -/

namespace Sys2Proof.Machine

/-- The accept step never drives the line, whatever the answer is (R29, R35). -/
@[simp] theorem accept_csAsserted (r : Reply) (s : State) : (accept r s).csAsserted = s.csAsserted := by
  by_cases h : r.events = []
  · rw [accept_of_events_nil h, report_csAsserted]
  · rw [accept_of_events_ne_nil h]

/-- Running a command never drives the line: its `Sel` events still wait in PENDING (R29, R35). -/
theorem exec_csAsserted {i : Instr} {s t : State} (h : exec i s = .next t) : t.csAsserted = s.csAsserted := by
  obtain ⟨r, hexec, -, -⟩ := exec_accepts i s
  obtain rfl : accept r s = t := by simpa [hexec] using h
  exact accept_csAsserted r s

/-- The emit step leaves the line where the presented event puts it, whether or not that event is the last (R29, R36). -/
theorem emitHead_csAsserted (s : State) : (emitHead s).csAsserted = csAfter s.csAsserted (s.pending.take 1) := by
  cases hp : s.pending with
  | nil => rw [emitHead_of_pending_nil hp]; rfl
  | cons e es =>
    rw [List.take_succ_cons, List.take_zero, ← onAck_csAsserted]
    by_cases hes : es = []
    · subst hes
      rw [emitHead_of_last hp, complete_csAsserted]
    · rw [emitHead_of_more hp hes]

/-- The line after a step without reset: moved by the acknowledged event, if there is one, and by nothing else (R29). -/
theorem step_csAsserted {s t : State} (hrst : s.nextPins.rst = false) (h : step s = .next t) :
    t.csAsserted
      = if s.busy && s.nextPins.evAck then csAfter s.csAsserted (s.pending.take 1) else s.csAsserted := by
  rcases step_cases s with ⟨hreset, -⟩ | ⟨-, hb, ha, hack⟩ | ⟨-, hb, ha, hwait⟩ | ⟨-, hb, -, hidle⟩
    | ⟨-, hb, -, i, -, hexec⟩ | ⟨-, hb, -, -, -, hillegal⟩
  · simp [hrst] at hreset
  · obtain rfl : emitHead s.takePins = t := by simpa [hack] using h
    simp [hb, ha, emitHead_csAsserted]
  · obtain rfl : s.takePins = t := by simpa [hwait] using h
    simp [hb, ha]
  · obtain rfl : s.takePins = t := by simpa [hidle] using h
    simp [hb]
  · simp [hb, exec_csAsserted (hexec ▸ h)]
  · obtain rfl : acceptIllegal s.takePins = t := by simpa [hillegal] using h
    simp [hb, acceptIllegal]

end Sys2Proof.Machine

open Sys2Proof Sys2Proof.Machine

/-- Settles O14: the lemma about one step, read for each kind of event at the head of PENDING. -/
theorem chipSelectFollowsAcknowledgedSel : Obligations.ChipSelectFollowsAcknowledgedSel := by
  refine ⟨fun s t hrst h => ?_, fun _ => rfl, powerOn_csAsserted _⟩
  rw [step_csAsserted hrst h]
  cases s.busy && s.nextPins.evAck with
  | false => rfl
  | true =>
    match s.pending with
    | [] => rfl
    | .sel _ :: _ => rfl
    | .tx _ :: _ => rfl
    | .delay _ :: _ => rfl

end

section
/-! PROOFS. The block and its devices: two states that differ only in the devices answer every operation of a step
alike (spec/20_memory.md R48). -/

namespace Sys2Proof.Machine

/-- The same block on other devices; `k` numbers the next free draw, which only the devices use (R48, R65). -/
def State.withDevices (s : State) (devs : List Device) (k : Nat) : State := { s with chain := devs, draws := k }

/-- Two states that differ in nothing but what the devices hold. -/
def SameBlock (s s' : State) : Prop := ∃ devs k, s' = s.withDevices devs k

section
variable {s s' t : State}

theorem SameBlock.busy_eq (h : SameBlock s s') : s'.busy = s.busy := by obtain ⟨devs, k, rfl⟩ := h; rfl
theorem SameBlock.pending_eq (h : SameBlock s s') : s'.pending = s.pending := by obtain ⟨devs, k, rfl⟩ := h; rfl
theorem SameBlock.emitted_eq (h : SameBlock s s') : s'.emitted = s.emitted := by obtain ⟨devs, k, rfl⟩ := h; rfl
theorem SameBlock.nextPins_eq (h : SameBlock s s') : s'.nextPins = s.nextPins := by obtain ⟨devs, k, rfl⟩ := h; rfl

theorem takePins_sameBlock (h : SameBlock s s') : SameBlock s.takePins s'.takePins := by
  obtain ⟨devs, k, rfl⟩ := h
  exact ⟨devs, k, rfl⟩

/-- Whether reset redraws the devices or leaves them is read from the line, which is the block's (R169, R170). -/
theorem blockReset_sameBlock (h : SameBlock s s') : SameBlock (blockReset s) (blockReset s') := by
  obtain ⟨devs, k, rfl⟩ := h
  cases hcs : s.csAsserted with
  | true =>
    refine ⟨freeChain k devs.length, k + deviceDraws * devs.length, ?_⟩
    simp [blockReset, chainOnReset, State.withDevices, hcs]
  | false =>
    refine ⟨devs, k, ?_⟩
    simp [blockReset, chainOnReset, State.withDevices, hcs]

/-- What an event does to the devices depends on them; what it does to the block does not (R62 to R64). -/
theorem onAck_sameBlock (e : BusEvent) (h : SameBlock s s') : SameBlock (onAck e s) (onAck e s') := by
  obtain ⟨devs, k, rfl⟩ := h
  match e with
  | .sel true => exact ⟨devs, k, rfl⟩
  | .sel false => exact ⟨latchAll s.params.regAddr k devs, k + regFileDraws * devs.length, rfl⟩
  | .tx b => exact ⟨shiftIn (.known b) devs, k, rfl⟩
  | .delay _ => exact ⟨devs, k, rfl⟩

/-- The emit step takes its event and its completion from the block alone (R36, R37). -/
theorem emitHead_sameBlock (h : SameBlock s s') : SameBlock (emitHead s) (emitHead s') := by
  cases hp : s.pending with
  | nil =>
    rw [emitHead_of_pending_nil hp, emitHead_of_pending_nil (h.pending_eq.trans hp)]
    exact h
  | cons e es =>
    obtain ⟨devs, k, hack⟩ := onAck_sameBlock e h
    refine ⟨devs, k, ?_⟩
    by_cases hes : es = []
    · subst hes
      rw [emitHead_of_last hp, emitHead_of_last (h.pending_eq.trans hp), hack, h.emitted_eq]
      rfl
    · rw [emitHead_of_more hp hes, emitHead_of_more (h.pending_eq.trans hp) hes, hack, h.emitted_eq]
      rfl

/-- The accept step writes the block alone (R35). -/
theorem accept_sameBlock (r : Reply) (h : SameBlock s s') : SameBlock (accept r s) (accept r s') := by
  obtain ⟨devs, k, rfl⟩ := h
  refine ⟨devs, k, ?_⟩
  by_cases hr : r.events = []
  · rw [accept_of_events_nil hr, accept_of_events_nil hr]; rfl
  · rw [accept_of_events_ne_nil hr, accept_of_events_ne_nil hr]; rfl

/-- A word that spells no command is reported alike, for the report reads CHAIN_LEN only (R147). -/
theorem acceptIllegal_sameBlock (h : SameBlock s s') : SameBlock (acceptIllegal s) (acceptIllegal s') := by
  have haccept := accept_sameBlock (Reply.raise s .illegalCommand) h
  obtain ⟨devs, k, rfl⟩ := h
  exact haccept

/-- No command reads a device: its answer is the same on both chains (R48). -/
theorem exec_same_reply (i : Instr) (h : SameBlock s s') :
    ∃ r, exec i s = .next (accept r s) ∧ exec i s' = .next (accept r s') := by
  obtain ⟨devs, k, rfl⟩ := h
  cases i with
  | setChainLength n =>
    by_cases hn : n = 0
    · exact ⟨Reply.raise s .invalidDevice, if_pos hn, if_pos hn⟩
    · exact ⟨{ status := .ok, result := n, events := [], chainLen := n }, if_neg hn, if_neg hn⟩
  | _ => exact ⟨_, rfl, rfl⟩

theorem exec_sameBlock {i : Instr} (h : SameBlock s s') (ht : exec i s = .next t) :
    ∃ t', exec i s' = .next t' ∧ SameBlock t t' := by
  obtain ⟨r, hs, hs'⟩ := exec_same_reply i h
  obtain rfl : accept r s = t := by simpa [hs] using ht
  exact ⟨_, hs', accept_sameBlock r h⟩

/-- The accepted word is decoded without the state, so both blocks run the same command (R35). -/
theorem runWord_sameBlock {w : Word} (h : SameBlock s s') (ht : runWord w s = .next t) :
    ∃ t', runWord w s' = .next t' ∧ SameBlock t t' := by
  cases hd : decode w with
  | ok i =>
    simp only [runWord, hd] at ht ⊢
    exact exec_sameBlock h ht
  | error _ =>
    simp only [runWord, hd] at ht ⊢
    cases ht
    exact ⟨_, rfl, acceptIllegal_sameBlock h⟩

/-- The pins and BUSY decide what a step does; the devices have no say (R48). -/
theorem stepPins_sameBlock {p : Pins} (h : SameBlock s s') (ht : stepPins p s = .next t) :
    ∃ t', stepPins p s' = .next t' ∧ SameBlock t t' := by
  unfold stepPins at ht ⊢
  rw [h.busy_eq]
  split at ht
  next hrst => cases ht; exact ⟨_, if_pos hrst, blockReset_sameBlock h⟩
  next hrst =>
    rw [if_neg hrst]
    split at ht
    next hbusy =>
      rw [if_pos hbusy]
      split at ht
      next hack => cases ht; exact ⟨_, if_pos hack, emitHead_sameBlock h⟩
      next hack => cases ht; exact ⟨_, if_neg hack, h⟩
    next hbusy =>
      rw [if_neg hbusy]
      split at ht
      next hvalid => rw [if_pos hvalid]; exact runWord_sameBlock h ht
      next hvalid => cases ht; exact ⟨_, if_neg hvalid, h⟩

/-- Two states of the same block take the same step, for they take the same pins. -/
theorem step_sameBlock (h : SameBlock s s') (ht : step s = .next t) :
    ∃ t', step s' = .next t' ∧ SameBlock t t' := by
  rw [step_eq] at ht ⊢
  rw [h.nextPins_eq]
  exact stepPins_sameBlock (takePins_sameBlock h) ht

end

end Sys2Proof.Machine

open Sys2Proof Sys2Proof.Machine

/-- Settles O21: a step keeps the block the same, whatever devices the second state holds. -/
theorem deviceContentsAreNeverRead : Obligations.DeviceContentsAreNeverRead := by
  intro s t devs k ht
  obtain ⟨t', hstep, devs', k', rfl⟩ := step_sameBlock ⟨devs, k, rfl⟩ ht
  exact ⟨devs', k', hstep⟩

end

section
/-! PROOFS. The chain primitives: the addressed frame in descending chain positions, and the device check
(spec/40_chain_primitives.md R101, R103). -/

namespace Sys2Proof.Machine

/-- The descending concatenation goes through the positions n, n - 1, …, 1 (spec/00_scope.md R12). -/
theorem concatDown_eq_flatMap {α : Type} (f : Nat → List α) (n : Nat) :
    concatDown f n = ((List.range n).map (fun i => n - i)).flatMap f := by
  induction n with
  | zero => rfl
  | succ n ih =>
    have hpositions : (List.range (n + 1)).map (fun i => n + 1 - i)
        = (n + 1) :: (List.range n).map (fun i => n - i) := by
      simp [List.range_succ_eq_map, Function.comp_def]
    rw [hpositions, List.flatMap_cons, concatDown_succ, ih]

/-- The check admits exactly the device numbers 1..N (R103). -/
theorem validDev_iff (d n : Byte) : validDev d n = true ↔ 1 ≤ d.toNat ∧ d.toNat ≤ n.toNat := by
  simp [validDev]

theorem validDev_eq_false_iff (d n : Byte) : validDev d n = false ↔ d.toNat = 0 ∨ n.toNat < d.toNat := by
  rw [Bool.eq_false_iff, ne_eq, validDev_iff]
  omega

/-- The digit check admits exactly the digits 1..8 (spec/42_digit_buffer_ops.md R131). -/
theorem digitReg_isSome_iff (k : Byte) : (digitReg k).isSome = true ↔ 1 ≤ k.toNat ∧ k.toNat ≤ 8 := by
  unfold digitReg
  split
  case h_9 =>
    simp only [imp_false] at *
    simp only [Option.isSome_none, Bool.false_eq_true, false_iff]
    omega
  all_goals simp [*]

section
variable {i : Instr} {s : State} {d k : Byte}

/-- A command with a device operand reports a device that is not on the chain, whatever its events would be (R103). -/
theorem exec_of_invalid_device {evs : List BusEvent} (hd : validDev d s.chainLen = false)
    (hexec : exec i s = .next (accept (replyOnDevice s d evs) s)) :
    exec i s = .next (s.report .invalidDevice 0x00) := by
  rcases replyOnDevice_cases s d evs with ⟨hvalid, -⟩ | ⟨-, hraise⟩
  · simp [hd] at hvalid
  · rw [hexec, hraise, accept_raise]

/-- A valid digit leaves the answer to the device check (R131, R103). -/
theorem exec_of_valid_digit_of_invalid_device {evs : RegName → List BusEvent} (hk : (digitReg k).isSome = true)
    (hd : validDev d s.chainLen = false) (hexec : exec i s = .next (accept (replyOnDigit s d k evs) s)) :
    exec i s = .next (s.report .invalidDevice 0x00) := by
  obtain ⟨r, hr⟩ := Option.isSome_iff_exists.mp hk
  have hreply : replyOnDigit s d k evs = replyOnDevice s d (evs r) := by simp [replyOnDigit, hr]
  exact exec_of_invalid_device hd (hreply ▸ hexec)

end

end Sys2Proof.Machine

open Sys2Proof Sys2Proof.Machine

/-- Settles O29: the frame's body is the descending concatenation, read position by position. -/
theorem addressedFrameGoesDownTheChain : Obligations.AddressedFrameGoesDownTheChain := by
  intro n d a v _ _
  rw [addrFrame, concatDown_eq_flatMap]
  rfl

/-- Settles O45: each of the eight commands hands its device to the one check, two of them after a digit that passes. -/
theorem invalidDeviceEmitsNothing : Obligations.InvalidDeviceEmitsNothing := by
  refine ⟨validDev_iff, fun s d k v dm r inten sl hdev hk1 hk8 => ?_⟩
  have hd := (validDev_eq_false_iff d s.chainLen).mpr hdev
  have hk := (digitReg_isSome_iff k).mpr ⟨hk1, hk8⟩
  simp only [List.forall_mem_cons]
  exact ⟨exec_of_invalid_device hd rfl, exec_of_invalid_device hd rfl, exec_of_invalid_device hd rfl,
    exec_of_invalid_device hd rfl, exec_of_valid_digit_of_invalid_device hk hd rfl,
    exec_of_valid_digit_of_invalid_device hk hd rfl, exec_of_invalid_device hd rfl, exec_of_invalid_device hd rfl,
    fun _ hnil => absurd hnil List.not_mem_nil⟩

end

section
/-! PROOFS. Errors: everything the acceptance of a word can lead to, and what an error's report leaves as it was
(spec/60_exceptions.md R147, R148). -/

namespace Sys2Proof.Machine

/-- What the acceptance of a word can make of the state `s`: events waiting under the status OK, an error reported with
RESULT 0x00, or a completion with OK, the only one that can write CHAIN_LEN (R35, R148). -/
inductive WordOutcome (s : State) : State → Prop where
  | pends {evs : List BusEvent} (hevs : evs ≠ []) :
      WordOutcome s { s with pending := evs, pendStatus := .ok, pendResult := 0x00, busy := true }
  | errs (code : Status) : WordOutcome s (s.report code 0x00)
  | succeeds (n res : Byte) : WordOutcome s (State.report { s with chainLen := n } .ok res)

section
variable {s t : State}

theorem accept_play_outcome (s : State) (evs : List BusEvent) : WordOutcome s (accept (Reply.play s evs) s) := by
  by_cases hevs : evs = []
  · rw [accept_of_events_nil (r := Reply.play s evs) hevs]
    exact .succeeds s.chainLen 0x00
  · rw [accept_play hevs]
    exact .pends hevs

theorem accept_onDevice_outcome (s : State) (dev : Byte) (evs : List BusEvent) :
    WordOutcome s (accept (replyOnDevice s dev evs) s) := by
  rcases replyOnDevice_cases s dev evs with ⟨-, hplay⟩ | ⟨-, hraise⟩
  · rw [hplay]; exact accept_play_outcome s evs
  · rw [hraise]; exact .errs .invalidDevice

theorem accept_onDigit_outcome (s : State) (dev digit : Byte) (evs : RegName → List BusEvent) :
    WordOutcome s (accept (replyOnDigit s dev digit evs) s) := by
  unfold replyOnDigit
  split
  next => exact .errs .invalidDigit
  next r _ => exact accept_onDevice_outcome s dev (evs r)

/-- Every command plays its events, perhaps after the device check or the digit check; SET_CHAIN_LENGTH alone answers
for itself (R122). -/
theorem exec_outcome {i : Instr} (h : exec i s = .next t) : WordOutcome s t := by
  cases i with
  | addressedWrite | configure | enable | disable | fillDevice | clearDevice =>
    cases h; exact accept_onDevice_outcome s _ _
  | writeDigit | clearDigit => cases h; exact accept_onDigit_outcome s _ _ _
  | broadcastWrite | configureAll | enableAll | disableAll | setTestMode | clearTestMode | fillAll | clearAll =>
    cases h; exact accept_play_outcome s _
  | setChainLength n =>
    simp only [exec, execSetChainLength] at h
    split at h
    next => cases h; exact .errs .invalidDevice
    next => cases h; exact .succeeds n n

/-- A word that spells no command is one more error (R147). -/
theorem runWord_outcome {w : Word} (h : runWord w s = .next t) : WordOutcome s t := by
  unfold runWord at h
  split at h
  next => exact exec_outcome h
  next => cases h; exact .errs .illegalCommand

/-- Only a command without error makes an idle block BUSY, so what waits will complete with OK and RESULT 0x00. -/
theorem WordOutcome.pend_ok (h : WordOutcome s t) (hidle : s.busy = false) (hbusy : t.busy = true) :
    t.pendStatus = .ok ∧ t.pendResult = 0x00 := by
  cases h with
  | pends _ => exact ⟨rfl, rfl⟩
  | errs _ => simp [hidle] at hbusy
  | succeeds _ _ => simp [hidle] at hbusy

/-- The report of a code other than OK is all that happened (R148). -/
theorem WordOutcome.eq_report_of_error {e : Status} (h : WordOutcome s t) (he : e ≠ .ok)
    (hreported : t.completions = s.completions ++ [e]) : t = s.report e 0x00 := by
  cases h with
  | pends _ => simp at hreported
  | errs code =>
    obtain rfl : code = e := by simpa using hreported
    rfl
  | succeeds _ _ =>
    obtain rfl : .ok = e := by simpa using hreported
    exact absurd rfl he

end

end Sys2Proof.Machine

open Sys2Proof Sys2Proof.Machine

/-- Settles O47: both clauses are read off the outcome of the accepted word. -/
theorem errorsHaveNoPartialEffect : Obligations.ErrorsHaveNoPartialEffect :=
  ⟨fun _ _ _ hidle h hbusy => (runWord_outcome h).pend_ok hidle hbusy,
    fun _ _ _ _ he h hreported => (runWord_outcome h).eq_report_of_error he hreported⟩

end

section
/-! PROOFS. Encoding: the decoder as one search through a table of rows, whose opcodes keep the rows apart, and the word
put together again from its fields (spec/30_encoding.md §1 to §5). -/

namespace Sys2Proof

/-! ### The decoder as a table -/

/-- The rows of the opcode map, each with the command its fields spell (R84, R85). -/
def decodeTable : List (OpcodeRow × (Word → Except Illegal Instr)) :=
  [(rowAddressedWrite, fun w => withRegister w (fun r => .addressedWrite (devField w) r (b0Field w))),
   (rowBroadcastWrite, fun w => withRegister w (fun r => .broadcastWrite r (b0Field w))),
   (rowConfigure, fun w => .ok (.configure (devField w) (b1Field w) (inField w) (slField w))),
   (rowConfigureAll, fun w => .ok (.configureAll (b1Field w) (inField w) (slField w))),
   (rowEnable, fun w => .ok (.enable (devField w))),
   (rowDisable, fun w => .ok (.disable (devField w))),
   (rowEnableAll, fun _ => .ok .enableAll),
   (rowDisableAll, fun _ => .ok .disableAll),
   (rowSetTestMode, fun _ => .ok .setTestMode),
   (rowClearTestMode, fun _ => .ok .clearTestMode),
   (rowWriteDigit, fun w => .ok (.writeDigit (devField w) (b1Field w) (b0Field w))),
   (rowClearDigit, fun w => .ok (.clearDigit (devField w) (b1Field w))),
   (rowFillDevice, fun w => .ok (.fillDevice (devField w))),
   (rowClearDevice, fun w => .ok (.clearDevice (devField w))),
   (rowFillAll, fun _ => .ok .fillAll),
   (rowClearAll, fun _ => .ok .clearAll),
   (rowSetChainLength, fun w => .ok (.setChainLength (b0Field w)))]

/-- Why a word that fits no row is rejected (R86, R87). -/
def noRowReason (w : Word) : Illegal := if opcodeReserved (opField w) then .reservedOpcode else .reservedBits

/-- A search through a table tries the first row first. -/
theorem find?_cons_map_getD {α β : Type} (p : α → Bool) (g : α → β) (x : β) (e : α) (es : List α) :
    (((e :: es).find? p).map g).getD x = if p e then g e else ((es.find? p).map g).getD x := by
  cases h : p e <;> simp [h]

/-- The first row of the table that the word fits. -/
def firstRow (w : Word) : Option (OpcodeRow × (Word → Except Illegal Instr)) :=
  decodeTable.find? (fun e => e.1.fits w)

/-- The decoder answers for the first row the word fits. -/
theorem decode_eq_firstRow (w : Word) :
    decode w = ((firstRow w).map (fun e => e.2 w)).getD (.error (noRowReason w)) := by
  simp only [firstRow, decodeTable, find?_cons_map_getD, List.find?_nil, Option.map_none, Option.getD_none,
    noRowReason, apply_ite Except.error]
  rfl

theorem firstRow_eq_some {w : Word} {e : OpcodeRow × (Word → Except Illegal Instr)} (h : firstRow w = some e) :
    e ∈ decodeTable ∧ e.1.fits w = true := by
  have hfit := List.find?_some h
  exact ⟨List.mem_of_find?_eq_some h, hfit⟩

theorem firstRow_eq_none_iff {w : Word} : firstRow w = none ↔ ∀ e ∈ decodeTable, e.1.fits w = false := by
  simp [firstRow]

section
variable {w : Word} {row : OpcodeRow} {f : Word → Except Illegal Instr} {k : Nat}

/-- A fitting word has the row's bits wherever the row's mask fixes them. -/
theorem OpcodeRow.extract_of_fits (hfit : row.fits w = true) (lo n : Nat)
    (hfixed : row.mask.extractLsb' lo n = BitVec.allOnes n) :
    w.extractLsb' lo n = row.pattern.extractLsb' lo n := by
  have hpattern : w &&& row.mask = row.pattern := by simpa [OpcodeRow.fits] using hfit
  rw [← hpattern, BitVec.extractLsb'_and, hfixed, BitVec.and_allOnes]

/-- Every row fixes the opcode. -/
theorem mask_fixes_opcode : ∀ e ∈ decodeTable, e.1.mask.extractLsb' 27 5 = BitVec.allOnes 5 := by
  simp only [decodeTable, List.forall_mem_cons]
  decide

/-- The opcode of a row of the table. -/
def rowOpcode (e : OpcodeRow × (Word → Except Illegal Instr)) : BitVec 5 := opField e.1.pattern

/-- No two rows have the same opcode. -/
theorem opcodes_nodup : (decodeTable.map rowOpcode).Nodup := by decide

theorem opField_of_fits {e : OpcodeRow × (Word → Except Illegal Instr)} (he : e ∈ decodeTable)
    (hfit : e.1.fits w = true) : opField w = rowOpcode e :=
  OpcodeRow.extract_of_fits hfit 27 5 (mask_fixes_opcode e he)

/-- The decoder answers for whichever row the word fits, as no word fits two. -/
theorem decode_of_row (hrow : decodeTable[k]? = some (row, f)) (hfit : row.fits w = true) : decode w = f w := by
  have hmem : (row, f) ∈ decodeTable := List.mem_of_getElem? hrow
  cases hfirst : firstRow w with
  | none => exact absurd hfit (Bool.eq_false_iff.mp (firstRow_eq_none_iff.mp hfirst _ hmem))
  | some e =>
    obtain ⟨he, hefit⟩ := firstRow_eq_some hfirst
    have hop : rowOpcode e = rowOpcode (row, f) :=
      (opField_of_fits he hefit).symm.trans (opField_of_fits hmem hfit)
    obtain rfl : e = (row, f) := List.inj_on_of_nodup_map opcodes_nodup he hmem hop
    simp [decode_eq_firstRow, hfirst]

/-- A word that fits no row is rejected for its opcode or for its other fixed bits. -/
theorem decode_of_no_row (hnone : ∀ e ∈ decodeTable, e.1.fits w = false) : decode w = .error (noRowReason w) := by
  simp [decode_eq_firstRow, firstRow_eq_none_iff.mpr hnone]

/-- A decoded word fits the row that spells its command. -/
theorem row_of_decode {i : Instr} (h : decode w = .ok i) : ∃ e ∈ decodeTable, e.1.fits w = true ∧ e.2 w = .ok i := by
  cases hfirst : firstRow w with
  | none => simp [decode_eq_firstRow, hfirst] at h
  | some e =>
    obtain ⟨he, hfit⟩ := firstRow_eq_some hfirst
    exact ⟨e, he, hfit, by simpa [decode_eq_firstRow, hfirst] using h⟩

end

/-! ### From the command to its word and back -/

/-- The word of a command fits the command's row, so it decodes to what that row's fields spell. -/
theorem decode_encode_of_row {i : Instr} {f : Word → Except Illegal Instr} (k : Nat)
    (hrow : decodeTable[k]? = some (Laws.rowOf i, f)) (hfit : Laws.EncodeFitsRow.Statement i) :
    decode (encode i) = f (encode i) :=
  decode_of_row hrow (beq_iff_eq.mpr hfit)

/-- The fields of a command's word are the command's operands. -/
theorem decode_encode (i : Instr) : decode (encode i) = .ok i := by
  cases i with
  | addressedWrite d r v =>
    rw [decode_encode_of_row 0 rfl (Laws.EncodeFitsRow.addressedWrite d r v)]
    simp [encode, withRegister]
  | broadcastWrite r v =>
    rw [decode_encode_of_row 1 rfl (Laws.EncodeFitsRow.broadcastWrite r v)]
    simp [encode, withRegister]
  | configure d dm inten sl =>
    rw [decode_encode_of_row 2 rfl (Laws.EncodeFitsRow.configure d dm inten sl)]
    simp [encode]
  | configureAll dm inten sl =>
    rw [decode_encode_of_row 3 rfl (Laws.EncodeFitsRow.configureAll dm inten sl)]
    simp [encode]
  | enable d =>
    rw [decode_encode_of_row 4 rfl (Laws.EncodeFitsRow.enable d)]
    simp [encode]
  | disable d =>
    rw [decode_encode_of_row 5 rfl (Laws.EncodeFitsRow.disable d)]
    simp [encode]
  | enableAll => exact decode_encode_of_row 6 rfl Laws.EncodeFitsRow.enableAll
  | disableAll => exact decode_encode_of_row 7 rfl Laws.EncodeFitsRow.disableAll
  | setTestMode => exact decode_encode_of_row 8 rfl Laws.EncodeFitsRow.setTestMode
  | clearTestMode => exact decode_encode_of_row 9 rfl Laws.EncodeFitsRow.clearTestMode
  | writeDigit d k v =>
    rw [decode_encode_of_row 10 rfl (Laws.EncodeFitsRow.writeDigit d k v)]
    simp [encode]
  | clearDigit d k =>
    rw [decode_encode_of_row 11 rfl (Laws.EncodeFitsRow.clearDigit d k)]
    simp [encode]
  | fillDevice d =>
    rw [decode_encode_of_row 12 rfl (Laws.EncodeFitsRow.fillDevice d)]
    simp [encode]
  | clearDevice d =>
    rw [decode_encode_of_row 13 rfl (Laws.EncodeFitsRow.clearDevice d)]
    simp [encode]
  | fillAll => exact decode_encode_of_row 14 rfl Laws.EncodeFitsRow.fillAll
  | clearAll => exact decode_encode_of_row 15 rfl Laws.EncodeFitsRow.clearAll
  | setChainLength n =>
    rw [decode_encode_of_row 16 rfl (Laws.EncodeFitsRow.setChainLength n)]
    simp [encode]

/-! ### From the word to its command and back -/

section
variable {w : Word}

/-- A word whose bits 26:24 are zero is its grid's four fields (R74). -/
theorem gridWord_fields (hz : w.extractLsb' 24 3 = 0#3) :
    gridWord (opField w) (devField w) (b1Field w) (b0Field w) = w := by
  have hbit (i : Nat) (hi : i < 3) : w.getLsbD (24 + i) = false := by
    simpa [hi] using congrArg (BitVec.getLsbD · i) hz
  apply BitVec.eq_of_getLsbD_eq
  intro i hi
  have h24 := hbit 0 (by decide)
  have h25 := hbit 1 (by decide)
  have h26 := hbit 2 (by decide)
  interval_cases i <;> simp_all [gridWord, opField, devField, b1Field, b0Field]

/-- The byte B1 of formats R and B, from its REG field (R77, R78). -/
theorem regByte_eq_b1Field {r : RegName} (hr : RegName.ofCode (regField w) = some r)
    (hz : w.extractLsb' 12 4 = 0#4) : regByte r = b1Field w := by
  have hbit (i : Nat) (hi : i < 4) : w.getLsbD (12 + i) = false := by
    simpa [hi] using congrArg (BitVec.getLsbD · i) hz
  have h12 := hbit 0 (by decide)
  have h13 := hbit 1 (by decide)
  have h14 := hbit 2 (by decide)
  have h15 := hbit 3 (by decide)
  rw [regByte, code_of_ofCode hr]
  apply BitVec.eq_of_getLsbD_eq
  intro i hi
  interval_cases i <;> simp_all [regField, b1Field]

/-- The byte B0 of formats C and C0, from its two short fields (R81). -/
theorem scanIntensityByte_eq_b0Field (hz : w.extractLsb' 7 1 = 0#1) :
    scanIntensityByte (inField w) (slField w) = b0Field w := by
  have h7 : w.getLsbD 7 = false := by simpa using congrArg (BitVec.getLsbD · 0) hz
  apply BitVec.eq_of_getLsbD_eq
  intro i hi
  interval_cases i <;> simp_all [scanIntensityByte, inField, slField, b0Field]

/-- A word with zero bits 26:24 is built from any four values its fields have. -/
theorem gridWord_eq_of_fields {op : BitVec 5} {dev b1 b0 : Byte} (hz : w.extractLsb' 24 3 = 0#3)
    (hop : opField w = op) (hdev : devField w = dev) (hb1 : b1Field w = b1) (hb0 : b0Field w = b0) :
    gridWord op dev b1 b0 = w := by
  subst hop hdev hb1 hb0
  exact gridWord_fields hz

/-- What a register row's command needs: the REG code names a register. -/
theorem withRegister_eq_ok_iff {f : RegName → Instr} {i : Instr} :
    withRegister w f = .ok i ↔ ∃ r, RegName.ofCode (regField w) = some r ∧ f r = i := by
  unfold withRegister
  split
  next r hr => simp [hr]
  next hr => simp [hr]

/-- A word that fits a row is built from the row's fixed bits and from the fields its command keeps. -/
theorem encode_of_decode {i : Instr} (h : decode w = .ok i) : encode i = w := by
  obtain ⟨e, he, hfit, hi⟩ := row_of_decode h
  have fixed (lo n : Nat) (hm : e.1.mask.extractLsb' lo n = BitVec.allOnes n) := OpcodeRow.extract_of_fits hfit lo n hm
  simp only [decodeTable, List.mem_cons, List.not_mem_nil, or_false] at he
  rcases he with rfl | rfl | rfl | rfl | rfl | rfl | rfl | rfl | rfl | rfl | rfl | rfl | rfl | rfl | rfl | rfl | rfl
  · obtain ⟨r, hr, rfl⟩ := withRegister_eq_ok_iff.mp hi
    exact gridWord_eq_of_fields (fixed 24 3 rfl) (fixed 27 5 rfl) rfl (regByte_eq_b1Field hr (fixed 12 4 rfl)).symm rfl
  · obtain ⟨r, hr, rfl⟩ := withRegister_eq_ok_iff.mp hi
    exact gridWord_eq_of_fields (fixed 24 3 rfl) (fixed 27 5 rfl) (fixed 16 8 rfl)
      (regByte_eq_b1Field hr (fixed 12 4 rfl)).symm rfl
  · cases hi
    exact gridWord_eq_of_fields (fixed 24 3 rfl) (fixed 27 5 rfl) rfl rfl
      (scanIntensityByte_eq_b0Field (fixed 7 1 rfl)).symm
  · cases hi
    exact gridWord_eq_of_fields (fixed 24 3 rfl) (fixed 27 5 rfl) (fixed 16 8 rfl) rfl
      (scanIntensityByte_eq_b0Field (fixed 7 1 rfl)).symm
  · cases hi
    exact gridWord_eq_of_fields (fixed 24 3 rfl) (fixed 27 5 rfl) rfl (fixed 8 8 rfl) (fixed 0 8 rfl)
  · cases hi
    exact gridWord_eq_of_fields (fixed 24 3 rfl) (fixed 27 5 rfl) rfl (fixed 8 8 rfl) (fixed 0 8 rfl)
  · cases hi
    exact gridWord_eq_of_fields (fixed 24 3 rfl) (fixed 27 5 rfl) (fixed 16 8 rfl) (fixed 8 8 rfl) (fixed 0 8 rfl)
  · cases hi
    exact gridWord_eq_of_fields (fixed 24 3 rfl) (fixed 27 5 rfl) (fixed 16 8 rfl) (fixed 8 8 rfl) (fixed 0 8 rfl)
  · cases hi
    exact gridWord_eq_of_fields (fixed 24 3 rfl) (fixed 27 5 rfl) (fixed 16 8 rfl) (fixed 8 8 rfl) (fixed 0 8 rfl)
  · cases hi
    exact gridWord_eq_of_fields (fixed 24 3 rfl) (fixed 27 5 rfl) (fixed 16 8 rfl) (fixed 8 8 rfl) (fixed 0 8 rfl)
  · cases hi
    exact gridWord_eq_of_fields (fixed 24 3 rfl) (fixed 27 5 rfl) rfl rfl rfl
  · cases hi
    exact gridWord_eq_of_fields (fixed 24 3 rfl) (fixed 27 5 rfl) rfl rfl (fixed 0 8 rfl)
  · cases hi
    exact gridWord_eq_of_fields (fixed 24 3 rfl) (fixed 27 5 rfl) rfl (fixed 8 8 rfl) (fixed 0 8 rfl)
  · cases hi
    exact gridWord_eq_of_fields (fixed 24 3 rfl) (fixed 27 5 rfl) rfl (fixed 8 8 rfl) (fixed 0 8 rfl)
  · cases hi
    exact gridWord_eq_of_fields (fixed 24 3 rfl) (fixed 27 5 rfl) (fixed 16 8 rfl) (fixed 8 8 rfl) (fixed 0 8 rfl)
  · cases hi
    exact gridWord_eq_of_fields (fixed 24 3 rfl) (fixed 27 5 rfl) (fixed 16 8 rfl) (fixed 8 8 rfl) (fixed 0 8 rfl)
  · cases hi
    exact gridWord_eq_of_fields (fixed 24 3 rfl) (fixed 27 5 rfl) (fixed 16 8 rfl) (fixed 8 8 rfl) rfl

/-! ### Which words decode, and why the others do not -/

/-- The words that decode are those that fit a row whose command they can name. -/
theorem decodes_iff : (∃ i, decode w = .ok i) ↔ ∃ e ∈ decodeTable, e.1.fits w = true ∧ ∃ i, e.2 w = .ok i := by
  constructor
  · rintro ⟨i, h⟩
    obtain ⟨e, he, hfit, hi⟩ := row_of_decode h
    exact ⟨e, he, hfit, i, hi⟩
  · rintro ⟨e, he, hfit, i, hi⟩
    obtain ⟨k, hk⟩ := List.getElem?_of_mem he
    exact ⟨i, (decode_of_row hk hfit).trans hi⟩

theorem OpcodeRow.fits_iff (row : OpcodeRow) : row.fits w = true ↔ w &&& row.mask = row.pattern := beq_iff_eq

/-- A register row names a command exactly when the REG code is not 14 or 15 (R80). -/
theorem withRegister_ok_iff (f : RegName → Instr) :
    (∃ i, withRegister w f = .ok i) ↔ (w.extractLsb' 8 4).toNat ≤ 13 := by
  have hcode := ofCode_isSome (regField w)
  simp only [withRegister_eq_ok_iff]
  rw [show (∃ i r, RegName.ofCode (regField w) = some r ∧ f r = i) ↔ (RegName.ofCode (regField w)).isSome = true by
    simp [Option.isSome_iff_exists], hcode, decide_eq_true_iff, regField]

/-- A REG code of 14 or 15 is rejected by name (R85). -/
theorem withRegister_reserved (f : RegName → Instr) (h : 14 ≤ (w.extractLsb' 8 4).toNat) :
    withRegister w f = .error .reservedRegister := by
  have hcode : RegName.ofCode (regField w) = none := by
    have : ¬ (regField w).toNat ≤ 13 := by rw [regField]; omega
    simpa [this] using ofCode_isSome (regField w)
  simp [withRegister, hcode]

/-- The opcodes of the rows are not reserved (R86). -/
theorem rowOpcode_not_reserved : ∀ e ∈ decodeTable, opcodeReserved (rowOpcode e) = false := by
  simp only [decodeTable, List.forall_mem_cons]
  decide

/-- A word with a reserved opcode fits no row. -/
theorem decode_of_reserved_opcode (h : opcodeReserved (opField w) = true) : decode w = .error .reservedOpcode := by
  rw [decode_of_no_row, noRowReason, if_pos h]
  intro e he
  by_contra hfit
  rw [opField_of_fits he (Bool.not_eq_false _ ▸ hfit), rowOpcode_not_reserved e he] at h
  exact Bool.false_ne_true h

/-- A word with the opcode of a row that it does not fit fits no other row either. -/
theorem decode_of_unfit {e : OpcodeRow × (Word → Except Illegal Instr)} (he : e ∈ decodeTable)
    (hop : opField w = rowOpcode e) (hunfit : e.1.fits w = false) : decode w = .error .reservedBits := by
  rw [decode_of_no_row, noRowReason, hop, rowOpcode_not_reserved e he]
  · rfl
  intro e' he'
  by_contra hfit
  rw [Bool.not_eq_false] at hfit
  obtain rfl : e' = e := List.inj_on_of_nodup_map opcodes_nodup he' he ((opField_of_fits he' hfit).symm.trans hop)
  exact Bool.false_ne_true (hunfit.symm.trans hfit)

/-- The table's rows are those of the opcode map. -/
theorem opcodeMap_eq : opcodeMap = decodeTable.map Prod.fst := rfl

end

end Sys2Proof

open Sys2Proof Sys2Proof.Machine

/-- Settles O1: the word fits its command's row, and the row's fields give the operands back. -/
theorem decodeOfEncode : Obligations.DecodeOfEncode := decode_encode

/-- Settles O2: a row fixes every bit that its command does not keep as an operand. -/
theorem encodeOfDecode : Obligations.EncodeOfDecode := fun _ _ h => encode_of_decode h

/-- Settles O3: the rows of the decoder's table, read one by one. -/
theorem decodeAcceptsExactlyTheOpcodeMap : Obligations.DecodeAcceptsExactlyTheOpcodeMap := by
  intro w
  have hall : w &&& 0xFFFFFFFF#32 = w := BitVec.and_allOnes
  simp only [decodes_iff, decodeTable, List.mem_cons, List.not_mem_nil, or_false, or_and_right, exists_or,
    exists_eq_left, OpcodeRow.fits_iff, withRegister_ok_iff, Except.ok.injEq, exists_eq', and_true]
  simp only [rowAddressedWrite, rowBroadcastWrite, rowConfigure, rowConfigureAll, rowEnable, rowDisable, rowEnableAll,
    rowDisableAll, rowSetTestMode, rowClearTestMode, rowWriteDigit, rowClearDigit, rowFillDevice, rowClearDevice,
    rowFillAll, rowClearAll, rowSetChainLength, hall, or_assoc]
  exact Iff.of_eq (by ac_rfl)

/-- Settles O4: a reserved opcode fits no row, a valid one only its own row, and the register rows check REG. -/
theorem rejectedWordsAreNamed : Obligations.RejectedWordsAreNamed := by
  intro w
  refine ⟨fun h => decode_of_reserved_opcode ?_, fun row hrow hop hunfit => ?_, fun hfit hreg => ?_⟩
  · exact (Bool.or_eq_true _ _).mpr (h.imp beq_iff_eq.mpr decide_eq_true)
  · rw [opcodeMap_eq] at hrow
    obtain ⟨e, he, rfl⟩ := List.mem_map.mp hrow
    exact decode_of_unfit he hop (Bool.eq_false_iff.mpr (mt (OpcodeRow.fits_iff _).mp hunfit))
  · rcases hfit with hfit | hfit
    · rw [decode_of_row (k := 0) rfl ((OpcodeRow.fits_iff rowAddressedWrite).mpr hfit), withRegister_reserved _ hreg]
    · rw [decode_of_row (k := 1) rfl ((OpcodeRow.fits_iff rowBroadcastWrite).mpr hfit), withRegister_reserved _ hreg]

/-- Settles O5: each of the spec's words, decoded. -/
theorem exampleWordsDecode : Obligations.ExampleWordsDecode := by
  refine ⟨by decide, by decide, by decide, by decide, by decide, by decide, by decide, by decide, by decide, by decide,
    by decide, by decide, by decide, by decide, by decide, by decide, by decide, ?_⟩
  simp only [List.forall_mem_cons]
  exact ⟨⟨_, rfl⟩, ⟨_, rfl⟩, ⟨_, rfl⟩, ⟨_, rfl⟩, ⟨_, rfl⟩, ⟨_, rfl⟩, ⟨_, rfl⟩, ⟨_, rfl⟩, ⟨_, rfl⟩, ⟨_, rfl⟩,
    fun _ hnil => absurd hnil List.not_mem_nil⟩

/-- Settles O6: the default map's two properties are closed facts about its 14 addresses. -/
theorem defaultAddressesAndRegisterCodes : Obligations.DefaultAddressesAndRegisterCodes :=
  ⟨rfl, rfl, fun _ => rfl, by decide, default_decodable⟩

end

section
/-! PROOFS. The assembler: R91's table and R92's ranges, row by row, against the table and the checks that the assembler
and `AsmLine.wellFormed` share (spec/30_encoding.md §6). -/

namespace Sys2Proof.Machine

/-! ### What the operand places take (R92) -/

section
variable {places : List OperandSlot} {os : List AsmOperand}

theorem slotsAccept_nil_iff : slotsAccept [] os = true ↔ os = [] := by
  cases os <;> simp [slotsAccept]

theorem slotsAccept_byte_iff : slotsAccept (.byte :: places) os = true
    ↔ ∃ n rest, n ≤ 255 ∧ slotsAccept places rest = true ∧ os = .num n :: rest := by
  rcases os with _ | ⟨_ | _, _⟩ <;> simp [slotsAccept, OperandSlot.accepts]

theorem slotsAccept_nibble_iff : slotsAccept (.nibble :: places) os = true
    ↔ ∃ n rest, n ≤ 15 ∧ slotsAccept places rest = true ∧ os = .num n :: rest := by
  rcases os with _ | ⟨_ | _, _⟩ <;> simp [slotsAccept, OperandSlot.accepts]

theorem slotsAccept_threeBits_iff : slotsAccept (.threeBits :: places) os = true
    ↔ ∃ n rest, n ≤ 7 ∧ slotsAccept places rest = true ∧ os = .num n :: rest := by
  rcases os with _ | ⟨_ | _, _⟩ <;> simp [slotsAccept, OperandSlot.accepts]

theorem slotsAccept_register_iff : slotsAccept (.register :: places) os = true
    ↔ ∃ s rest, s ∈ RegName.spellings ∧ slotsAccept places rest = true ∧ os = .name s :: rest := by
  rcases os with _ | ⟨_ | _, _⟩ <;> simp [slotsAccept, OperandSlot.accepts]

end

/-! ### The register names (R90) -/

theorem spelledRegisters_sound : ∀ p ∈ spelledRegisters, p.1 ∈ RegName.spellings ∧ regOfSpelling p.1 = some p.2 := by
  decide

theorem spelledRegisters_complete : ∀ s ∈ RegName.spellings, ∃ p ∈ spelledRegisters, p.1 = s := by decide

/-! ### Written commands -/

/-- A spelled command passes the assembler's checks and is the one it builds. -/
theorem Spells.accepted {l : AsmLine} {i : Instr} (h : Spells l i) :
    ∃ places, operandSlots l.mnemonic = some places ∧ slotsAccept places l.operands = true
      ∧ buildInstr l.mnemonic l.operands = some i := by
  cases h with
  | addressedWrite hd hr hv =>
    obtain ⟨hs, hname⟩ := spelledRegisters_sound _ hr
    exact ⟨_, rfl, by simp [slotsAccept, OperandSlot.accepts, hd, hv, hs], by simp [buildInstr, hname]⟩
  | broadcastWrite hr hv =>
    obtain ⟨hs, hname⟩ := spelledRegisters_sound _ hr
    exact ⟨_, rfl, by simp [slotsAccept, OperandSlot.accepts, hv, hs], by simp [buildInstr, hname]⟩
  | _ => exact ⟨_, rfl, by simp [slotsAccept, OperandSlot.accepts, *], rfl⟩

/-- Operands that pass a mnemonic's checks spell one of its commands. -/
theorem spells_of_accepted {m : String} {places : List OperandSlot} {os : List AsmOperand}
    (hm : operandSlots m = some places) (hacc : slotsAccept places os = true) : ∃ i, Spells ⟨m, os⟩ i := by
  unfold operandSlots at hm
  split at hm <;> cases hm <;> simp only [slotsAccept_byte_iff, slotsAccept_nibble_iff, slotsAccept_threeBits_iff,
    slotsAccept_register_iff, slotsAccept_nil_iff] at hacc
  next =>
    obtain ⟨d, _, hd, ⟨s, _, hs, ⟨v, _, hv, rfl, rfl⟩, rfl⟩, rfl⟩ := hacc
    obtain ⟨p, hp, rfl⟩ := spelledRegisters_complete s hs
    exact ⟨_, .addressedWrite hd hp hv⟩
  next =>
    obtain ⟨s, _, hs, ⟨v, _, hv, rfl, rfl⟩, rfl⟩ := hacc
    obtain ⟨p, hp, rfl⟩ := spelledRegisters_complete s hs
    exact ⟨_, .broadcastWrite hp hv⟩
  next =>
    obtain ⟨d, _, hd, ⟨dm, _, hdm, ⟨inten, _, hi, ⟨sl, _, hsl, rfl, rfl⟩, rfl⟩, rfl⟩, rfl⟩ := hacc
    exact ⟨_, .configure hd hdm hi hsl⟩
  next =>
    obtain ⟨dm, _, hdm, ⟨inten, _, hi, ⟨sl, _, hsl, rfl, rfl⟩, rfl⟩, rfl⟩ := hacc
    exact ⟨_, .configureAll hdm hi hsl⟩
  next => obtain ⟨d, _, hd, rfl, rfl⟩ := hacc; exact ⟨_, .enable hd⟩
  next => obtain ⟨d, _, hd, rfl, rfl⟩ := hacc; exact ⟨_, .disable hd⟩
  next => obtain rfl := hacc; exact ⟨_, .enableAll⟩
  next => obtain rfl := hacc; exact ⟨_, .disableAll⟩
  next => obtain rfl := hacc; exact ⟨_, .setTestMode⟩
  next => obtain rfl := hacc; exact ⟨_, .clearTestMode⟩
  next =>
    obtain ⟨d, _, hd, ⟨k, _, hk, ⟨v, _, hv, rfl, rfl⟩, rfl⟩, rfl⟩ := hacc
    exact ⟨_, .writeDigit hd hk hv⟩
  next =>
    obtain ⟨d, _, hd, ⟨k, _, hk, rfl, rfl⟩, rfl⟩ := hacc
    exact ⟨_, .clearDigit hd hk⟩
  next => obtain ⟨d, _, hd, rfl, rfl⟩ := hacc; exact ⟨_, .fillDevice hd⟩
  next => obtain ⟨d, _, hd, rfl, rfl⟩ := hacc; exact ⟨_, .clearDevice hd⟩
  next => obtain rfl := hacc; exact ⟨_, .fillAll⟩
  next => obtain rfl := hacc; exact ⟨_, .clearAll⟩
  next => obtain ⟨n, _, hn, rfl, rfl⟩ := hacc; exact ⟨_, .setChainLength hn⟩

theorem assemble_of_spells {l : AsmLine} {i : Instr} (h : Spells l i) : assemble l = .ok i := by
  obtain ⟨places, hplaces, hacc, hbuild⟩ := h.accepted
  simp [assemble, hplaces, hacc, hbuild]

theorem wellFormed_iff (l : AsmLine) :
    l.wellFormed = true ↔ ∃ places, operandSlots l.mnemonic = some places ∧ slotsAccept places l.operands = true := by
  unfold AsmLine.wellFormed
  cases operandSlots l.mnemonic <;> simp

/-- The assembler builds nothing from a line that is not well formed. -/
theorem wellFormed_of_assemble {l : AsmLine} {i : Instr} (h : assemble l = .ok i) : l.wellFormed = true := by
  rw [wellFormed_iff]
  unfold assemble at h
  split at h
  next => cases h
  next places hplaces =>
    split at h
    next hacc => exact ⟨places, hplaces, hacc⟩
    next => cases h

theorem wellFormed_iff_spells (l : AsmLine) : l.wellFormed = true ↔ ∃ i, Spells l i := by
  rw [wellFormed_iff]
  constructor
  · rintro ⟨places, hplaces, hacc⟩
    exact spells_of_accepted hplaces hacc
  · rintro ⟨i, h⟩
    obtain ⟨places, hplaces, hacc, -⟩ := h.accepted
    exact ⟨places, hplaces, hacc⟩

end Sys2Proof.Machine

open Sys2Proof Sys2Proof.Machine

/-- Settles O7: what the assembler builds is well formed, so it spells some command, and that is the command built. -/
theorem assemblerAcceptsExactlyWellFormedLines : Obligations.AssemblerAcceptsExactlyWellFormedLines := by
  refine fun l => ⟨fun i => ⟨fun h => ?_, assemble_of_spells⟩, wellFormed_iff_spells l⟩
  obtain ⟨j, hj⟩ := (wellFormed_iff_spells l).mp (wellFormed_of_assemble h)
  obtain rfl : i = j := by simpa [h] using assemble_of_spells hj
  exact hj

end

section
/-! PROOFS. Frames: every frame as a list of pairs between two `Sel` events, its length and its bytes, and the frames a
command builds in the spec's wire-position form (spec/40_chain_primitives.md R101, R102, R106, R107). -/

namespace Sys2Proof.Machine

/-! ### A frame of pairs -/

/-- One chip-select window around these pairs, the first one sent first (R101, R102). -/
def pairFrame (ps : List (Byte × Byte)) : List BusEvent :=
  .sel true :: ps.flatMap (fun p => pair p.1 p.2) ++ [.sel false]

/-- The pairs of an addressed frame in the order sent: pair number `i` is for the chain position `n - i` (R101). -/
def addrPairs (n d : Nat) (a v : Byte) : List (Byte × Byte) :=
  (List.range n).map (fun i => if n - i = d then (a, v) else (0x00, 0x00))

@[simp] theorem addrPairs_length (n d : Nat) (a v : Byte) : (addrPairs n d a v).length = n := by simp [addrPairs]

/-- Pair number `i` is the target's exactly at the wire position `n - d` (R107). -/
theorem addrPairs_getElem? {n d i : Nat} (a v : Byte) (hd : 1 ≤ d) (hdn : d ≤ n) (hi : i < n) :
    (addrPairs n d a v)[i]? = some (if i = n - d then (a, v) else (0x00, 0x00)) := by
  have hposition : n - i = d ↔ i = n - d := by omega
  simp [addrPairs, hi, hposition]

@[simp] theorem pairFrame_length (ps : List (Byte × Byte)) : (pairFrame ps).length = 2 * ps.length + 2 := by
  induction ps with
  | nil => rfl
  | cons p ps ih =>
    simp only [pairFrame, pair, List.flatMap_cons, List.length_cons, List.length_append, List.length_nil] at ih ⊢
    omega

/-- The bytes of a frame are its pairs' bytes. -/
@[simp] theorem txBytes_pairFrame (ps : List (Byte × Byte)) :
    txBytes (pairFrame ps) = ps.flatMap (fun p => [p.1, p.2]) := by
  have hpairs : txBytes (ps.flatMap (fun p => pair p.1 p.2)) = ps.flatMap (fun p => [p.1, p.2]) := by
    induction ps with
    | nil => rfl
    | cons p ps ih => rw [List.flatMap_cons, txBytes_append, ih]; rfl
  simp [pairFrame, txBytes, hpairs]

theorem pairs_length {α : Type} (ps : List (α × α)) : (ps.flatMap (fun p => [p.1, p.2])).length = 2 * ps.length := by
  induction ps with
  | nil => rfl
  | cons p ps ih => simp [List.flatMap_cons, ih]; omega

/-- The two values of pair number `i` stand at the places `2 * i` and `2 * i + 1`. -/
theorem pairs_getElem? {α : Type} (ps : List (α × α)) : ∀ i,
    (ps.flatMap (fun p => [p.1, p.2]))[2 * i]? = ps[i]?.map Prod.fst
      ∧ (ps.flatMap (fun p => [p.1, p.2]))[2 * i + 1]? = ps[i]?.map Prod.snd := by
  induction ps with
  | nil => intro i; simp
  | cons p ps ih =>
    intro i
    cases i with
    | zero => exact ⟨rfl, rfl⟩
    | succ i => exact ih i

/-! ### The primitives as frames of pairs -/

/-- The ascending concatenation goes through the positions a, a + 1, … (spec/00_scope.md R12). -/
theorem concatUp_eq_flatMap {α : Type} (f : Nat → List α) (n : Nat) :
    ∀ a, concatUp f a n = (List.range n).flatMap (fun i => f (a + i)) := by
  induction n with
  | zero => intro a; rfl
  | succ n ih =>
    intro a
    simp [concatUp_succ, ih, List.range_succ_eq_map, List.flatMap_map, Nat.add_assoc, Nat.add_comm 1]

theorem addrFrame_eq_pairFrame (n d a v : Byte) : addrFrame n d a v = pairFrame (addrPairs n.toNat d.toNat a v) := by
  have hpair (p : Nat) : (if p = d.toNat then pair a v else noOpPair)
      = pair (if p = d.toNat then (a, v) else (0x00, 0x00)).1 (if p = d.toNat then (a, v) else (0x00, 0x00)).2 := by
    split <;> rfl
  simp only [addrFrame, pairFrame, addrPairs, concatDown_eq_flatMap, List.flatMap_map, hpair]
  rfl

theorem wireFrame_eq_pairFrame {n d : Nat} (a v : Byte) (hd : 1 ≤ d) (hdn : d ≤ n) :
    wireFrame n d a v = pairFrame (addrPairs n d a v) := by
  simp only [wireFrame, pairFrame, addrPairs, List.flatMap_map]
  congr 2
  refine List.flatMap_congr fun i hi => ?_
  have hposition : i = n - d ↔ n - i = d := by rw [List.mem_range] at hi; omega
  simp only [hposition]
  split <;> rfl

/-- The addressed frame in wire-position form (R107). -/
theorem addrFrame_eq_wireFrame {n d : Byte} (a v : Byte) (hd : 1 ≤ d.toNat) (hdn : d.toNat ≤ n.toNat) :
    addrFrame n d a v = wireFrame n.toNat d.toNat a v :=
  (addrFrame_eq_pairFrame n d a v).trans (wireFrame_eq_pairFrame a v hd hdn).symm

/-- Broadcast frames in wire-position form (R102). -/
theorem bcastFrames_eq_onePairFrames (n a v : Byte) : bcastFrames n a v = onePairFrames n.toNat a v := by
  rw [bcastFrames, concatUp_eq_flatMap, onePairFrames, List.flatMap_def, List.map_const', List.length_range]
  rfl

theorem onePairFrames_succ (n : Nat) (a v : Byte) :
    onePairFrames (n + 1) a v = onePairFrames n a v ++ pairFrame [(a, v)] := by
  simp [onePairFrames, List.replicate_succ', pairFrame, pair]

/-! ### Lengths -/

@[simp] theorem addrFrame_length (n d a v : Byte) : (addrFrame n d a v).length = 2 * n.toNat + 2 := by
  simp [addrFrame_eq_pairFrame]

@[simp] theorem onePairFrames_length (n : Nat) (a v : Byte) : (onePairFrames n a v).length = 4 * n := by
  simp [onePairFrames, Nat.mul_comm]

@[simp] theorem bcastFrames_length (n a v : Byte) : (bcastFrames n a v).length = 4 * n.toNat := by
  simp [bcastFrames_eq_onePairFrames]

theorem onePairFrames_txBytes_length (n : Nat) (a v : Byte) : (txBytes (onePairFrames n a v)).length = 2 * n := by
  induction n with
  | zero => rfl
  | succ n ih => simp [onePairFrames_succ, ih]; omega

@[simp] theorem digitFrames_length (m : RegMap) (n d v : Byte) :
    (digitFrames m n d v).length = 16 * n.toNat + 16 := by
  simp [digitFrames, digitRegs]; omega

@[simp] theorem allDigitFrames_length (m : RegMap) (n v : Byte) :
    (allDigitFrames m n v).length = n.toNat * (16 * n.toNat + 16) := by
  simp [allDigitFrames, concatUp_eq_flatMap, List.length_flatMap]

theorem onePairFrames_ne_nil {n : Nat} (a v : Byte) (hn : n ≠ 0) : onePairFrames n a v ≠ [] :=
  List.ne_nil_of_length_pos (by rw [onePairFrames_length]; omega)

/-! ### The digit frames in wire-position form -/

theorem digitFrames_eq_wireDigitFrames (m : RegMap) {n d : Byte} (v : Byte) (hd : 1 ≤ d.toNat)
    (hdn : d.toNat ≤ n.toNat) : digitFrames m n d v = wireDigitFrames m n.toNat d.toNat v := by
  simp only [digitFrames, addrFrame_eq_wireFrame _ _ hd hdn]
  rfl

theorem wireDigitFrames_ne_nil (m : RegMap) (n d : Nat) (v : Byte) : wireDigitFrames m n d v ≠ [] := by
  simp [wireDigitFrames, wireFrame, List.range_succ]

theorem allDigitFrames_eq_wireDigitFrames (m : RegMap) (n v : Byte) :
    allDigitFrames m n v = (List.range n.toNat).flatMap (fun k => wireDigitFrames m n.toNat (k + 1) v) := by
  rw [allDigitFrames, concatUp_eq_flatMap]
  refine List.flatMap_congr fun k hk => ?_
  have hdevice : (BitVec.ofNat 8 (1 + k)).toNat = k + 1 := by
    have := List.mem_range.mp hk
    have := n.isLt
    rw [BitVec.toNat_ofNat]
    omega
  rw [digitFrames_eq_wireDigitFrames m v (by omega) (by have := List.mem_range.mp hk; omega), hdevice]

end Sys2Proof.Machine

open Sys2Proof Sys2Proof.Machine

/-- Settles O30: the frame's bytes are its pairs' bytes, and pair number i is read off the list of pairs. -/
theorem targetPairStandsAtItsWirePosition : Obligations.TargetPairStandsAtItsWirePosition := by
  intro n d a v hd hdn
  rw [addrFrame_eq_pairFrame, txBytes_pairFrame]
  refine ⟨by rw [pairs_length, addrPairs_length], fun i hi => ?_, ?_⟩
  · obtain ⟨haddr, hval⟩ := pairs_getElem? (addrPairs n.toNat d.toNat a v) i
    rw [haddr, hval, addrPairs_getElem? a v hd hdn hi]
    split <;> exact ⟨rfl, rfl⟩
  · rw [List.map_flatMap]
    rfl

/-- Settles O31: the frames of a broadcast are all the same; at N = 1 both primitives are one frame of one pair. -/
theorem broadcastIsOneFramePerPosition : Obligations.BroadcastIsOneFramePerPosition :=
  ⟨bcastFrames_eq_onePairFrames, fun _ _ => rfl⟩

/-- Settles O32: each frame is two `Sel` events and the bytes of its pairs. -/
theorem primitiveEventCounts : Obligations.PrimitiveEventCounts := by
  intro n d a v
  refine ⟨addrFrame_length n d a v, ?_, bcastFrames_length n a v, ?_⟩
  · rw [addrFrame_eq_pairFrame, txBytes_pairFrame, pairs_length, addrPairs_length]
  · rw [bcastFrames_eq_onePairFrames, onePairFrames_txBytes_length]

end

section
/-! PROOFS. Commands: what each command makes pending, written once as a function of CHAIN_LEN and the parameters, and
the state after its acceptance (spec/40_chain_primitives.md §2, spec/41_configuration_ops.md,
spec/42_digit_buffer_ops.md). -/

namespace Sys2Proof.Machine

/-! ### The digit map and the short fields -/

/-- Digit k selects DIGIT_(k-1), the k-th register name (R131). -/
theorem digitReg_eq_getElem? {k : Byte} (hk1 : 1 ≤ k.toNat) (hk8 : k.toNat ≤ 8) :
    digitReg k = RegName.all[k.toNat]? := by
  unfold digitReg
  interval_cases k.toNat <;> rfl

/-- The default wire address of digit k is k (R50, R131). -/
theorem digitReg_default_addr {k : Byte} (hk1 : 1 ≤ k.toNat) (hk8 : k.toNat ≤ 8) :
    (digitReg k).map RegMap.default.addr = some k := by
  obtain ⟨n, hn⟩ : ∃ n, k.toNat = n := ⟨_, rfl⟩
  obtain rfl : k = BitVec.ofNat 8 n := by rw [← hn, BitVec.ofNat_toNat, BitVec.setWidth_eq]
  rw [hn] at hk1 hk8
  interval_cases n <;> rfl

theorem digitReg_eq_none {k : Byte} (hk : k.toNat = 0 ∨ 9 ≤ k.toNat) : digitReg k = none := by
  rw [← Option.not_isSome_iff_eq_none, digitReg_isSome_iff]
  omega

theorem intensityByte_eq (inten : BitVec 4) : intensityByte inten = BitVec.ofNat 8 inten.toNat := by
  apply BitVec.eq_of_toNat_eq
  simp [intensityByte]

theorem scanLimitByte_eq (sl : BitVec 3) : scanLimitByte sl = BitVec.ofNat 8 sl.toNat := by
  apply BitVec.eq_of_toNat_eq
  simp [scanLimitByte]

/-! ### The acceptance of a command -/

/-- These events wait for their acknowledgements, to complete with OK and RESULT 0x00 (R35). -/
def State.pend (s : State) (evs : List BusEvent) : State :=
  { s with pending := evs, pendStatus := .ok, pendResult := 0x00, busy := true }

section
variable {i : Instr} {s : State} {d k : Byte}

theorem exec_play {evs : List BusEvent} (hne : evs ≠ [])
    (hexec : exec i s = .next (accept (Reply.play s evs) s)) : exec i s = .next (s.pend evs) := by
  rw [hexec, accept_play hne]
  rfl

/-- A command to a device of the chain plays its events (R103). -/
theorem exec_of_valid_device {evs : List BusEvent} (hd : 1 ≤ d.toNat ∧ d.toNat ≤ s.chainLen.toNat) (hne : evs ≠ [])
    (hexec : exec i s = .next (accept (replyOnDevice s d evs) s)) : exec i s = .next (s.pend evs) := by
  rcases replyOnDevice_cases s d evs with ⟨-, hplay⟩ | ⟨hinvalid, -⟩
  · exact exec_play hne (hplay ▸ hexec)
  · rw [(validDev_iff d s.chainLen).mpr hd] at hinvalid
    cases hinvalid

theorem exec_of_valid_digit {evs : RegName → List BusEvent} {r : RegName} (hr : digitReg k = some r)
    (hexec : exec i s = .next (accept (replyOnDigit s d k evs) s)) :
    exec i s = .next (accept (replyOnDevice s d (evs r)) s) := by
  simpa [replyOnDigit, hr] using hexec

/-- Past the digit check WRITE_DIGIT is an addressed write of the digit's register (R132). -/
theorem exec_writeDigit_of_valid {r : RegName} (v : Byte) (hr : digitReg k = some r) :
    exec (.writeDigit d k v) s = exec (.addressedWrite d r v) s :=
  exec_of_valid_digit (evs := fun r => s.addrFrame d r v) hr rfl

/-- An invalid digit is reported before the device is looked at (R131). -/
theorem exec_of_invalid_digit {evs : RegName → List BusEvent} (hk : digitReg k = none)
    (hexec : exec i s = .next (accept (replyOnDigit s d k evs) s)) :
    exec i s = .next (s.report .invalidDigit 0x00) := by
  rw [hexec, replyOnDigit, hk, accept_raise]

end

/-! ### The state after each command's acceptance -/

section
variable (s : State)

section
variable {d : Byte} (hd : 1 ≤ d.toNat ∧ d.toNat ≤ s.chainLen.toNat)
include hd

/-- A command that answers with one addressed frame. -/
theorem exec_addrFrame {i : Instr} {r : RegName} {v : Byte}
    (hexec : exec i s = .next (accept (replyOnDevice s d (s.addrFrame d r v)) s)) :
    exec i s = .next (s.pend (wireFrame s.chainLen.toNat d.toNat (s.params.regAddr.addr r) v)) := by
  rw [state_addrFrame_eq, addrFrame_eq_wireFrame _ _ hd.1 hd.2] at hexec
  exact exec_of_valid_device hd (by simp [wireFrame]) hexec

/-- A command that answers with the eight digit frames of one device. -/
theorem exec_digitFrames {i : Instr} {v : Byte}
    (hexec : exec i s = .next (accept (replyOnDevice s d (digitFrames s.params.regAddr s.chainLen d v)) s)) :
    exec i s = .next (s.pend (wireDigitFrames s.params.regAddr s.chainLen.toNat d.toNat v)) := by
  rw [digitFrames_eq_wireDigitFrames _ _ hd.1 hd.2] at hexec
  exact exec_of_valid_device hd (wireDigitFrames_ne_nil _ _ _ _) hexec

/-- CONFIGURE of a device of the chain (R114). -/
theorem exec_configure (dm : Byte) (inten : BitVec 4) (sl : BitVec 3) :
    exec (.configure d dm inten sl) s = .next (s.pend
      (wireFrame s.chainLen.toNat d.toNat (s.params.regAddr.addr .decodeMode) dm
        ++ [.delay s.params.tSettleUs]
        ++ wireFrame s.chainLen.toNat d.toNat (s.params.regAddr.addr .intensity) (BitVec.ofNat 8 inten.toNat)
        ++ [.delay s.params.tSettleUs]
        ++ wireFrame s.chainLen.toNat d.toNat (s.params.regAddr.addr .scanLimit) (BitVec.ofNat 8 sl.toNat))) := by
  rw [exec_of_valid_device (i := .configure d dm inten sl) hd (by simp) rfl]
  simp only [state_addrFrame_eq, state_settle_eq, addrFrame_eq_wireFrame _ _ hd.1 hd.2, intensityByte_eq,
    scanLimitByte_eq]

end

section
variable (hn : s.chainLen ≠ 0)
include hn

theorem chainLen_toNat_ne_zero : s.chainLen.toNat ≠ 0 := fun h => hn (BitVec.eq_of_toNat_eq h)

/-- A command that answers with one broadcast. -/
theorem exec_bcastFrames {i : Instr} {r : RegName} {v : Byte}
    (hexec : exec i s = .next (accept (Reply.play s (s.bcastFrames r v)) s)) :
    exec i s = .next (s.pend (onePairFrames s.chainLen.toNat (s.params.regAddr.addr r) v)) := by
  rw [state_bcastFrames_eq, bcastFrames_eq_onePairFrames] at hexec
  exact exec_play (onePairFrames_ne_nil _ _ (chainLen_toNat_ne_zero s hn)) hexec

/-- A command that answers with the digit frames of every device. -/
theorem exec_allDigitFrames {i : Instr} {v : Byte}
    (hexec : exec i s = .next (accept (Reply.play s (allDigitFrames s.params.regAddr s.chainLen v)) s)) :
    exec i s = .next (s.pend ((List.range s.chainLen.toNat).flatMap
      (fun k => wireDigitFrames s.params.regAddr s.chainLen.toNat (k + 1) v))) := by
  rw [← allDigitFrames_eq_wireDigitFrames]
  refine exec_play (List.ne_nil_of_length_pos ?_) hexec
  rw [allDigitFrames_length]
  exact Nat.mul_pos (Nat.pos_of_ne_zero (chainLen_toNat_ne_zero s hn)) (by omega)

end

/-- CONFIGURE_ALL (R115). -/
theorem exec_configureAll (dm : Byte) (inten : BitVec 4) (sl : BitVec 3) :
    exec (.configureAll dm inten sl) s = .next (s.pend
      (onePairFrames s.chainLen.toNat s.params.regAddr.decodeMode dm
        ++ [.delay s.params.tSettleUs]
        ++ onePairFrames s.chainLen.toNat s.params.regAddr.intensity (BitVec.ofNat 8 inten.toNat)
        ++ [.delay s.params.tSettleUs]
        ++ onePairFrames s.chainLen.toNat s.params.regAddr.scanLimit (BitVec.ofNat 8 sl.toNat))) := by
  rw [exec_play (i := .configureAll dm inten sl) (by simp) rfl]
  simp only [state_bcastFrames_eq, state_settle_eq, bcastFrames_eq_onePairFrames, intensityByte_eq, scanLimitByte_eq]
  rfl

end

/-! ### How many events wait -/

theorem pending_length_of_pend {i : Instr} {s t : State} {evs : List BusEvent} {n : Nat}
    (hexec : exec i s = .next (s.pend evs)) (hlen : evs.length = n) (h : exec i s = .next t) :
    t.pending.length = n := by
  obtain rfl : s.pend evs = t := by simpa [hexec] using h
  exact hlen

theorem wireFrame_length {n d : Nat} (a v : Byte) (hd : 1 ≤ d ∧ d ≤ n) : (wireFrame n d a v).length = 2 * n + 2 := by
  rw [wireFrame_eq_pairFrame a v hd.1 hd.2, pairFrame_length, addrPairs_length]

theorem wireDigitFrames_length (m : RegMap) {n d : Nat} (v : Byte) (hd : 1 ≤ d ∧ d ≤ n) :
    (wireDigitFrames m n d v).length = 16 * n + 16 := by
  simp only [wireDigitFrames, List.length_flatMap, wireFrame_length _ _ hd, List.map_const', List.length_range,
    List.sum_replicate, smul_eq_mul]
  omega

/-- A word that reports an error leaves nothing pending (R148). -/
theorem WordOutcome.pending_of_error {s t : State} (h : WordOutcome s t) (hpending : s.pending = [])
    (herror : (if t.busy then t.pendStatus else t.status) ≠ .ok) : t.pending = [] := by
  cases h with
  | pends _ => exact absurd rfl herror
  | errs _ => exact hpending
  | succeeds _ _ => exact hpending

/-! ### The events of every command -/

/-- The events a command plays when no error stops it, at CHAIN_LEN = n. -/
def commandEvents (p : Params) (n : Byte) : Instr → List BusEvent
  | .addressedWrite d r v => addrFrame n d (p.regAddr.addr r) v
  | .broadcastWrite r v => bcastFrames n (p.regAddr.addr r) v
  | .configure d dm inten sl =>
    addrFrame n d p.regAddr.decodeMode dm
      ++ settle p ++ addrFrame n d p.regAddr.intensity (intensityByte inten)
      ++ settle p ++ addrFrame n d p.regAddr.scanLimit (scanLimitByte sl)
  | .configureAll dm inten sl =>
    bcastFrames n p.regAddr.decodeMode dm
      ++ settle p ++ bcastFrames n p.regAddr.intensity (intensityByte inten)
      ++ settle p ++ bcastFrames n p.regAddr.scanLimit (scanLimitByte sl)
  | .enable d => addrFrame n d p.regAddr.shutdown 0x01
  | .disable d => addrFrame n d p.regAddr.shutdown 0x00
  | .enableAll => bcastFrames n p.regAddr.shutdown 0x01
  | .disableAll => bcastFrames n p.regAddr.shutdown 0x00
  | .setTestMode => bcastFrames n p.regAddr.displayTest 0x01
  | .clearTestMode => bcastFrames n p.regAddr.displayTest 0x00
  | .writeDigit d k v => addrFrame n d (p.regAddr.addr ((digitReg k).getD .noOp)) v
  | .clearDigit d k => addrFrame n d (p.regAddr.addr ((digitReg k).getD .noOp)) 0x00
  | .fillDevice d => digitFrames p.regAddr n d 0xFF
  | .clearDevice d => digitFrames p.regAddr n d 0x00
  | .fillAll => allDigitFrames p.regAddr n 0xFF
  | .clearAll => allDigitFrames p.regAddr n 0x00
  | .setChainLength _ => []

/-- An accepted answer with events makes them pending, and one without leaves PENDING alone. -/
theorem accept_pending (r : Reply) (s : State) :
    (accept r s).pending = if r.events = [] then s.pending else r.events := by
  split
  next h => rw [accept_of_events_nil h]; rfl
  next h => rw [accept_of_events_ne_nil h]

theorem accept_play_pending (s : State) (evs : List BusEvent) :
    (accept (Reply.play s evs) s).pending = s.pending ∨ (accept (Reply.play s evs) s).pending = evs := by
  rw [accept_pending]
  split
  exacts [.inl rfl, .inr rfl]

theorem accept_onDevice_pending (s : State) (dev : Byte) (evs : List BusEvent) :
    (accept (replyOnDevice s dev evs) s).pending = s.pending
      ∨ (accept (replyOnDevice s dev evs) s).pending = evs := by
  rcases replyOnDevice_cases s dev evs with ⟨-, hplay⟩ | ⟨-, hraise⟩
  · rw [hplay]; exact accept_play_pending s evs
  · rw [hraise]; exact .inl rfl

theorem accept_onDigit_pending (s : State) (dev digit : Byte) (evs : RegName → List BusEvent) :
    (accept (replyOnDigit s dev digit evs) s).pending = s.pending
      ∨ (accept (replyOnDigit s dev digit evs) s).pending = evs ((digitReg digit).getD .noOp) := by
  unfold replyOnDigit
  cases digitReg digit with
  | none => exact .inl rfl
  | some r => exact accept_onDevice_pending s dev (evs r)

/-- What is pending after the acceptance of a command: what was pending before, or the command's events. -/
theorem exec_pending {i : Instr} {s t : State} (h : exec i s = .next t) :
    t.pending = s.pending ∨ t.pending = commandEvents s.params s.chainLen i := by
  cases i with
  | addressedWrite | configure | enable | disable | fillDevice | clearDevice =>
    cases h; exact accept_onDevice_pending s _ _
  | writeDigit | clearDigit => cases h; exact accept_onDigit_pending s _ _ _
  | broadcastWrite | configureAll | enableAll | disableAll | setTestMode | clearTestMode | fillAll | clearAll =>
    cases h; exact accept_play_pending s _
  | setChainLength n =>
    simp only [exec, execSetChainLength] at h
    split at h <;> cases h <;> exact .inl rfl

/-- The events of every command keep the chip-select discipline and come in whole pairs (R108, R55). -/
theorem commandEvents_disciplines (p : Params) (n : Byte) (i : Instr) :
    csDiscipline false (commandEvents p n i) = true ∧ wholePairs false (commandEvents p n i) = true := by
  have hsettle : csDiscipline false (settle p) = true ∧ wholePairs false (settle p) = true := ⟨rfl, rfl⟩
  cases i with
  | addressedWrite | enable | disable | writeDigit | clearDigit => exact disciplines_addrFrame _ _ _ _
  | broadcastWrite | enableAll | disableAll | setTestMode | clearTestMode => exact disciplines_bcastFrames _ _ _
  | configure d dm inten sl =>
    have hframe := disciplines_addrFrame n d
    exact disciplines_append (disciplines_append (disciplines_append (disciplines_append (hframe _ _) hsettle)
      (hframe _ _)) hsettle) (hframe _ _)
  | configureAll dm inten sl =>
    have hframes := disciplines_bcastFrames n
    exact disciplines_append (disciplines_append (disciplines_append (disciplines_append (hframes _ _) hsettle)
      (hframes _ _)) hsettle) (hframes _ _)
  | fillDevice | clearDevice => exact disciplines_digitFrames _ _ _ _
  | fillAll | clearAll => exact disciplines_allDigitFrames _ _ _
  | setChainLength => exact ⟨rfl, rfl⟩

/-- The longest commands are FILL_ALL and CLEAR_ALL on the longest chain (R106). -/
theorem commandEvents_length_le (p : Params) (n : Byte) (i : Instr) : (commandEvents p n i).length ≤ 1044480 := by
  have hn : n.toNat ≤ 255 := by have := n.isLt; omega
  cases i with
  | fillAll | clearAll =>
    rw [commandEvents, allDigitFrames_length]
    calc n.toNat * (16 * n.toNat + 16) ≤ 255 * (16 * 255 + 16) := Nat.mul_le_mul hn (by omega)
      _ = 1044480 := rfl
  | _ => simp [commandEvents, settle] <;> omega

/-- An accepted command keeps the disciplines, whether its events or none are pending. -/
theorem exec_disciplines {i : Instr} {s t : State} (hpending : s.pending = []) (h : exec i s = .next t) :
    csDiscipline false t.pending = true ∧ wholePairs false t.pending = true := by
  rcases exec_pending h with hp | hp <;> rw [hp]
  · rw [hpending]; exact ⟨rfl, rfl⟩
  · exact commandEvents_disciplines _ _ _

end Sys2Proof.Machine

open Sys2Proof Sys2Proof.Machine

/-- Settles O33: the disciplines hold of the events of every command. -/
theorem commandsKeepTheChipSelectDiscipline : Obligations.CommandsKeepTheChipSelectDiscipline :=
  fun _ _ _ hpending h => exec_disciplines hpending h

/-- Settles O34: the events of each group of commands counted frame by frame, the bound from the two longest. -/
theorem commandEventCounts : Obligations.CommandEventCounts := by
  refine ⟨fun s t d k v dm r inten sl hd hdn hk1 hk8 => ?_, fun s t n hpending h => ?_,
    fun w s t _ hpending h herror => ?_, fun i s t hpending h => ?_⟩
  · have hn : s.chainLen ≠ 0 := by rintro h0; rw [h0] at hdn; simp at hdn; omega
    obtain ⟨q, hq⟩ := Option.isSome_iff_exists.mp ((digitReg_isSome_iff k).mpr ⟨hk1, hk8⟩)
    have hframe {i : Instr} {r : RegName} {v : Byte}
        (hexec : exec i s = .next (accept (replyOnDevice s d (s.addrFrame d r v)) s)) :=
      pending_length_of_pend (t := t) (exec_addrFrame s ⟨hd, hdn⟩ hexec) (wireFrame_length _ _ ⟨hd, hdn⟩)
    have hbcast {i : Instr} {r : RegName} {v : Byte}
        (hexec : exec i s = .next (accept (Reply.play s (s.bcastFrames r v)) s)) :=
      pending_length_of_pend (t := t) (exec_bcastFrames s hn hexec) (onePairFrames_length _ _ _)
    have hdigits {i : Instr} {v : Byte}
        (hexec : exec i s = .next (accept (replyOnDevice s d (digitFrames s.params.regAddr s.chainLen d v)) s)) :=
      pending_length_of_pend (t := t) (exec_digitFrames s ⟨hd, hdn⟩ hexec) (wireDigitFrames_length _ _ ⟨hd, hdn⟩)
    have hall {i : Instr} {v : Byte}
        (hexec : exec i s = .next (accept (Reply.play s (allDigitFrames s.params.regAddr s.chainLen v)) s)) :=
      pending_length_of_pend (t := t) (n := 16 * s.chainLen.toNat ^ 2 + 16 * s.chainLen.toNat)
        (exec_allDigitFrames s hn hexec) (by rw [← allDigitFrames_eq_wireDigitFrames, allDigitFrames_length]; ring)
    simp only [List.forall_mem_cons, List.not_mem_nil, false_implies, implies_true, and_true]
    refine ⟨⟨hframe rfl, hframe (r := .shutdown) rfl, hframe (r := .shutdown) rfl,
        hframe (exec_writeDigit_of_valid v hq), hframe (exec_writeDigit_of_valid 0x00 hq)⟩,
      ⟨hbcast rfl, hbcast (r := .shutdown) rfl, hbcast (r := .shutdown) rfl, hbcast (r := .displayTest) rfl,
        hbcast (r := .displayTest) rfl⟩,
      pending_length_of_pend (exec_configure s ⟨hd, hdn⟩ dm inten sl) ?_,
      pending_length_of_pend (exec_configureAll s dm inten sl) ?_,
      ⟨hdigits rfl, hdigits rfl⟩, hall rfl, hall rfl⟩
    · simp only [List.length_append, wireFrame_length _ _ (And.intro hd hdn), List.length_singleton]
      omega
    · simp only [List.length_append, onePairFrames_length, List.length_singleton]
      omega
  · rcases exec_pending h with hp | hp <;> rw [hp]
    · rw [hpending]; rfl
    · rfl
  · rw [(runWord_outcome h).pending_of_error hpending herror]
    rfl
  · rcases exec_pending h with hp | hp <;> rw [hp]
    · rw [hpending]; exact Nat.zero_le _
    · exact commandEvents_length_le _ _ _

/-- Settles O35: one addressed frame. -/
theorem addressedWriteQueuesItsFrame : Obligations.AddressedWriteQueuesItsFrame :=
  fun s _ _ _ hd hdn => exec_addrFrame s ⟨hd, hdn⟩ rfl

/-- Settles O36: one broadcast. -/
theorem broadcastWriteQueuesItsFrames : Obligations.BroadcastWriteQueuesItsFrames :=
  fun s _ _ hn => exec_bcastFrames s hn rfl

/-- Settles O37: the command's events in wire-position form. -/
theorem configureQueuesThreeFramesAndTwoDelays : Obligations.ConfigureQueuesThreeFramesAndTwoDelays :=
  fun s _ dm inten sl hd hdn => exec_configure s ⟨hd, hdn⟩ dm inten sl

/-- Settles O38: with its delays the command has events at every CHAIN_LEN. -/
theorem configureAllQueuesThreeBroadcasts : Obligations.ConfigureAllQueuesThreeBroadcasts :=
  fun s dm inten sl _ => exec_configureAll s dm inten sl

/-- Settles O39: one addressed frame each. -/
theorem enableAndDisableWriteShutdown : Obligations.EnableAndDisableWriteShutdown :=
  fun s _ hd hdn => ⟨exec_addrFrame s ⟨hd, hdn⟩ (r := .shutdown) rfl, exec_addrFrame s ⟨hd, hdn⟩ (r := .shutdown) rfl⟩

/-- Settles O40: one broadcast each. -/
theorem wholeChainSwitchesAreBroadcasts : Obligations.WholeChainSwitchesAreBroadcasts :=
  fun s hn => ⟨exec_bcastFrames s hn (r := .shutdown) rfl, exec_bcastFrames s hn (r := .shutdown) rfl,
    exec_bcastFrames s hn (r := .displayTest) rfl, exec_bcastFrames s hn (r := .displayTest) rfl⟩

/-- Settles O41: past the digit check both commands answer with one addressed frame. -/
theorem digitWritesQueueTheirFrame : Obligations.DigitWritesQueueTheirFrame := by
  intro s d k v r hd hdn hk1 hk8 hr
  rw [← digitReg_eq_getElem? hk1 hk8] at hr
  exact ⟨exec_addrFrame s ⟨hd, hdn⟩ (exec_writeDigit_of_valid v hr),
    exec_addrFrame s ⟨hd, hdn⟩ (exec_writeDigit_of_valid 0x00 hr)⟩

/-- Settles O42: the digit frames of one device. -/
theorem deviceFillsQueueEightFrames : Obligations.DeviceFillsQueueEightFrames :=
  fun s _ hd hdn => ⟨exec_digitFrames s ⟨hd, hdn⟩ rfl, exec_digitFrames s ⟨hd, hdn⟩ rfl⟩

/-- Settles O43: the digit frames of every device. -/
theorem chainFillsGoDeviceByDevice : Obligations.ChainFillsGoDeviceByDevice :=
  fun s hn => ⟨exec_allDigitFrames s hn rfl, exec_allDigitFrames s hn rfl⟩

/-- Settles O44: both answers are without events. -/
theorem setChainLengthSetsAndReturns : Obligations.SetChainLengthSetsAndReturns :=
  fun _ _ => ⟨fun hn => if_neg hn, rfl⟩

/-- Settles O46: the digit map on 1..8, and the digit check before any device check elsewhere. -/
theorem invalidDigitComesFirst : Obligations.InvalidDigitComesFirst := by
  refine ⟨fun k hk1 hk8 => ⟨digitReg_eq_getElem? hk1 hk8, digitReg_default_addr hk1 hk8⟩, fun s d k v hk => ?_⟩
  have hnone := digitReg_eq_none hk
  simp only [List.forall_mem_cons]
  exact ⟨hnone, exec_of_invalid_digit hnone rfl, exec_of_invalid_digit hnone rfl,
    fun _ hnil => absurd hnil List.not_mem_nil⟩

/-- Settles O48: the equivalent commands answer alike, WRITE_DIGIT past its digit check. -/
theorem equivalentCommands : Obligations.EquivalentCommands := by
  intro s d k v
  refine ⟨rfl, rfl, rfl, rfl, rfl, rfl, rfl, fun r hk1 hk8 hr => ?_⟩
  rw [← digitReg_eq_getElem? hk1 hk8] at hr
  exact exec_writeDigit_of_valid v hr

end

section
/-! PROOFS. One step: what each operation of a step changes and leaves alone, field by field, and from it what every
step keeps (spec/10_state.md §4, spec/60_exceptions.md, spec/70_reset_and_hazards.md §1). -/

namespace Sys2Proof.Machine

/-! ### The accept step, field by field -/

section
variable (r : Reply) (s : State)

/-- An accepted answer is made pending, or it completes in the accept step (R35). -/
theorem accept_eq :
    accept r s = if r.events = [] then State.report { s with chainLen := r.chainLen } r.status r.result
      else { s with chainLen := r.chainLen, pending := r.events, pendStatus := r.status, pendResult := r.result,
                    busy := true } := by
  split
  next h => exact accept_of_events_nil h
  next h => exact accept_of_events_ne_nil h

@[simp] theorem accept_chainLen : (accept r s).chainLen = r.chainLen := by rw [accept_eq]; split <;> rfl
@[simp] theorem accept_params : (accept r s).params = s.params := by rw [accept_eq]; split <;> rfl
@[simp] theorem accept_chain : (accept r s).chain = s.chain := by rw [accept_eq]; split <;> rfl
@[simp] theorem accept_emitted : (accept r s).emitted = s.emitted := by rw [accept_eq]; split <;> rfl
@[simp] theorem accept_inputs : (accept r s).inputs = s.inputs := by rw [accept_eq]; split <;> rfl

end

/-! ### The emit step, field by field -/

section
variable (s : State)

/-- The acknowledged event takes effect and moves from PENDING to what was emitted (R36). -/
def State.ackHead (s : State) (e : BusEvent) (es : List BusEvent) : State :=
  { onAck e s with pending := es, emitted := s.emitted ++ [e] }

theorem emitHead_eq {s : State} {e : BusEvent} {es : List BusEvent} (h : s.pending = e :: es) :
    emitHead s = if es = [] then complete (s.ackHead e es) else s.ackHead e es := by
  split
  next hes => subst hes; exact emitHead_of_last h
  next hes => exact emitHead_of_more h hes

@[simp] theorem onAck_chain_length (e : BusEvent) (s : State) : (onAck e s).chain.length = s.chain.length := by
  match e with
  | .sel true => rfl
  | .sel false => simp
  | .tx _ => simp
  | .delay _ => rfl

/-- What the emit step never changes. -/
theorem emitHead_frame :
    (emitHead s).chainLen = s.chainLen ∧ (emitHead s).params = s.params ∧ (emitHead s).inputs = s.inputs
      ∧ (emitHead s).chain.length = s.chain.length := by
  cases hp : s.pending with
  | nil => rw [emitHead_of_pending_nil hp]; exact ⟨rfl, rfl, rfl, rfl⟩
  | cons e es =>
    obtain ⟨hchainLen, -, -, -, -, -, -, hinputs, -, -, hparams⟩ := onAck_frame e s
    rw [emitHead_eq hp]
    split <;> exact ⟨hchainLen, hparams, hinputs, onAck_chain_length e s⟩

@[simp] theorem emitHead_chainLen : (emitHead s).chainLen = s.chainLen := by
  obtain ⟨h, -⟩ := emitHead_frame s; exact h
@[simp] theorem emitHead_params : (emitHead s).params = s.params := by
  obtain ⟨-, h, -⟩ := emitHead_frame s; exact h
@[simp] theorem emitHead_inputs : (emitHead s).inputs = s.inputs := by
  obtain ⟨-, -, h, -⟩ := emitHead_frame s; exact h
@[simp] theorem emitHead_chain_length : (emitHead s).chain.length = s.chain.length := by
  obtain ⟨-, -, -, h⟩ := emitHead_frame s; exact h

@[simp] theorem emitHead_pending : (emitHead s).pending = s.pending.tail := by
  cases hp : s.pending with
  | nil => rw [emitHead_of_pending_nil hp, hp]; rfl
  | cons e es => rw [emitHead_eq hp]; split <;> rfl

@[simp] theorem emitHead_emitted : (emitHead s).emitted = s.emitted ++ s.pending.take 1 := by
  cases hp : s.pending with
  | nil => rw [emitHead_of_pending_nil hp]; simp
  | cons e es => rw [emitHead_eq hp]; split <;> rfl

theorem emitHead_chain {s : State} {e : BusEvent} {es : List BusEvent} (h : s.pending = e :: es) :
    (emitHead s).chain = (onAck e s).chain := by
  rw [emitHead_eq h]; split <;> rfl

/-- An acknowledgement before the last leaves the registers of the command as they are (R36). -/
theorem emitHead_of_more_frame {s : State} {e : BusEvent} {es : List BusEvent} (h : s.pending = e :: es)
    (hes : es ≠ []) :
    (emitHead s).busy = s.busy ∧ (emitHead s).status = s.status ∧ (emitHead s).result = s.result
      ∧ (emitHead s).pendStatus = s.pendStatus ∧ (emitHead s).pendResult = s.pendResult
      ∧ (emitHead s).completions = s.completions := by
  obtain ⟨-, hstatus, hresult, hbusy, -, hpendStatus, hpendResult, -, -, hcompletions, -⟩ := onAck_frame e s
  rw [emitHead_of_more h hes]
  exact ⟨hbusy, hstatus, hresult, hpendStatus, hpendResult, hcompletions⟩

/-- The last acknowledgement completes the command (R37). -/
theorem emitHead_of_last_frame {s : State} {e : BusEvent} (h : s.pending = [e]) :
    (emitHead s).busy = false ∧ (emitHead s).status = s.pendStatus ∧ (emitHead s).result = s.pendResult
      ∧ (emitHead s).pendStatus = .ok ∧ (emitHead s).pendResult = 0x00
      ∧ (emitHead s).completions = s.completions ++ [s.pendStatus] := by
  obtain ⟨-, -, -, -, -, hpendStatus, hpendResult, -, -, hcompletions, -⟩ := onAck_frame e s
  rw [emitHead_of_last h]
  simp [hpendStatus, hpendResult, hcompletions]

end

/-! ### Reset -/

@[simp] theorem blockReset_chain_length (s : State) : (blockReset s).chain.length = s.chain.length := by
  rw [blockReset_chain]; split <;> simp

theorem blockReset_draws (s : State) :
    (blockReset s).draws = if s.csAsserted then s.draws + deviceDraws * s.chain.length else s.draws := by
  unfold blockReset chainOnReset; split <;> rfl

/-- Every byte of a redrawn chain is UNKNOWN, with a draw of the chain's own block (R65, R170). -/
theorem freeChain_cells {dev : Device} {c : Cell} (n : Nat) : ∀ k, dev ∈ freeChain k n →
    (c = dev.a ∨ c = dev.d ∨ ∃ r, dev.regs.read r = some c) →
    ∃ i, k ≤ i ∧ i < k + deviceDraws * n ∧ c = .unknown i := by
  induction n with
  | zero => intro k hdev; simp [freeChain] at hdev
  | succ n ih =>
    intro k hdev hc
    rw [deviceDraws, Nat.mul_succ]
    rcases List.mem_cons.mp hdev with rfl | hrest
    · rcases hc with rfl | rfl | ⟨r, hr⟩
      · exact ⟨k, by omega, by omega, rfl⟩
      · exact ⟨k + 1, by omega, by omega, rfl⟩
      · obtain ⟨i, hi, rfl⟩ := read_freeRegFile (k + 2) hr
        rw [regFileDraws] at hi
        exact ⟨k + 2 + i, by omega, by omega, rfl⟩
    · obtain ⟨i, hki, hi, rfl⟩ := ih _ hrest hc
      rw [deviceDraws] at hki hi
      exact ⟨i, by omega, by omega, rfl⟩

/-! ### The acceptance of a word -/

/-- Every command answers a next state (R148, R153). -/
theorem exec_next (i : Instr) (s : State) : ∃ r, exec i s = .next (accept r s) := by
  obtain ⟨r, hr, -⟩ := exec_accepts i s
  exact ⟨r, hr⟩

/-- Every word is accepted with one answer: its command's, or IllegalCommand (R35, R147). -/
theorem runWord_accepts (w : Word) (s : State) : ∃ r, runWord w s = .next (accept r s) := by
  unfold runWord
  split
  next i _ => exact exec_next i s
  next => exact ⟨_, rfl⟩

/-- Only SET_CHAIN_LENGTH changes CHAIN_LEN, and not to 0 (R24, R25). -/
theorem exec_chainLen {i : Instr} {s t : State} (h : exec i s = .next t) :
    t.chainLen = s.chainLen ∨ ∃ n, n ≠ 0 ∧ i = .setChainLength n ∧ t.chainLen = n := by
  obtain ⟨r, hexec, -, hchainLen⟩ := exec_accepts i s
  obtain rfl : accept r s = t := by simpa [hexec] using h
  rw [accept_chainLen]
  rcases hchainLen with heq | ⟨n, hn, hi, rfl⟩
  · exact .inl heq
  · exact .inr ⟨n, hn, hi, rfl⟩

/-- What an answer is made from: two states that agree on CHAIN_LEN and the parameters get the same one (R22). -/
theorem exec_same_answer (i : Instr) {s s' : State} (hn : s.chainLen = s'.chainLen) (hp : s.params = s'.params) :
    ∃ r, exec i s = .next (accept r s) ∧ exec i s' = .next (accept r s') := by
  have hplay (evs : List BusEvent) : Reply.play s' evs = Reply.play s evs := by rw [Reply.play, ← hn]; rfl
  have hraise (c : Status) : Reply.raise s' c = Reply.raise s c := by rw [Reply.raise, ← hn]; rfl
  have honDevice (d : Byte) (evs : List BusEvent) : replyOnDevice s' d evs = replyOnDevice s d evs := by
    rw [replyOnDevice, ← hn, hplay, hraise]; rfl
  have honDigit (d k : Byte) (evs : RegName → List BusEvent) : replyOnDigit s' d k evs = replyOnDigit s d k evs := by
    simp only [replyOnDigit, hraise, honDevice]
  cases i with
  | setChainLength n =>
    by_cases h0 : n = 0
    · refine ⟨Reply.raise s .invalidDevice, if_pos h0, ?_⟩
      rw [← hraise]
      exact if_pos h0
    · exact ⟨{ status := .ok, result := n, events := [], chainLen := n }, if_neg h0, if_neg h0⟩
  | writeDigit | clearDigit =>
    refine ⟨_, rfl, ?_⟩
    rw [← honDigit]
    simp only [state_addrFrame_eq, hn, hp]
    rfl
  | addressedWrite | configure | enable | disable | fillDevice | clearDevice =>
    refine ⟨_, rfl, ?_⟩
    rw [← honDevice]
    simp only [state_addrFrame_eq, state_settle_eq, hn, hp]
    rfl
  | _ =>
    refine ⟨_, rfl, ?_⟩
    rw [← hplay]
    simp only [state_bcastFrames_eq, state_settle_eq, hn, hp]
    rfl

/-! ### Steps of a block in a known situation -/

section
variable {s : State}

theorem step_of_reset (h : s.nextPins.rst = true) : step s = .next (blockReset s.takePins) := by
  simp [step_eq, stepPins, h]

theorem step_of_ack (hrst : s.nextPins.rst = false) (hbusy : s.busy = true) (hack : s.nextPins.evAck = true) :
    step s = .next (emitHead s.takePins) := by
  simp [step_eq, stepPins, hrst, hbusy, hack]

theorem step_of_wait (hrst : s.nextPins.rst = false)
    (h : (s.busy = true ∧ s.nextPins.evAck = false) ∨ (s.busy = false ∧ s.nextPins.cmdValid = false)) :
    step s = .next s.takePins := by
  rcases h with ⟨hbusy, hack⟩ | ⟨hbusy, hvalid⟩
  · simp [step_eq, stepPins, hrst, hbusy, hack]
  · simp [step_eq, stepPins, hrst, hbusy, hvalid]

/-- A BUSY block reads of its pins the reset and the acknowledgement only (R36, R38). -/
theorem step_of_busy {p : Pins} {rest : List Pins} (hbusy : s.busy = true) (hrst : p.rst = false) :
    step { s with inputs := p :: rest }
      = .next (if p.evAck then emitHead { s with inputs := rest } else { s with inputs := rest }) := by
  cases hack : p.evAck with
  | true => exact step_of_ack (s := { s with inputs := p :: rest }) hrst hbusy hack
  | false => exact step_of_wait (s := { s with inputs := p :: rest }) hrst (.inl ⟨hbusy, hack⟩)

theorem step_of_word (hrst : s.nextPins.rst = false) (hbusy : s.busy = false) (hvalid : s.nextPins.cmdValid = true) :
    step s = runWord s.nextPins.cmdWord s.takePins := by
  simp [step_eq, stepPins, hrst, hbusy, hvalid]

/-- Everything one step can do, with the word's answer left open: be reset, acknowledge, wait, or accept. -/
theorem step_shape (s : State) :
    (s.nextPins.rst = true ∧ step s = .next (blockReset s.takePins))
      ∨ (s.nextPins.rst = false ∧ s.busy = true ∧ s.nextPins.evAck = true ∧ step s = .next (emitHead s.takePins))
      ∨ (s.nextPins.rst = false ∧ step s = .next s.takePins)
      ∨ (s.nextPins.rst = false ∧ s.busy = false ∧ s.nextPins.cmdValid = true
          ∧ step s = runWord s.nextPins.cmdWord s.takePins ∧ ∃ r, step s = .next (accept r s.takePins)) := by
  rcases step_cases s with h | h | ⟨hrst, -, -, hwait⟩ | ⟨hrst, -, -, hwait⟩ | ⟨hrst, hbusy, hvalid, -⟩
    | ⟨hrst, hbusy, hvalid, -⟩
  · exact .inl h
  · exact .inr (.inl h)
  · exact .inr (.inr (.inl ⟨hrst, hwait⟩))
  · exact .inr (.inr (.inl ⟨hrst, hwait⟩))
  all_goals
    have hword := step_of_word hrst hbusy hvalid
    exact .inr (.inr (.inr ⟨hrst, hbusy, hvalid, hword, hword ▸ runWord_accepts _ _⟩))

end

/-! ### The invariant -/

section
variable {s t : State}

theorem inv_blockReset (h : s.Inv) : (blockReset s).Inv where
  chainLen_ne_zero := h.params_legal.1
  params_legal := by rw [blockReset_params]; exact h.params_legal
  chain_length := by rw [blockReset_chain_length, blockReset_params]; exact h.chain_length
  idle := fun _ => ⟨rfl, rfl, rfl, rfl⟩
  running := fun hbusy => absurd hbusy Bool.false_ne_true

theorem inv_takePins (h : s.Inv) : s.takePins.Inv :=
  ⟨h.chainLen_ne_zero, h.params_legal, h.chain_length, h.idle, h.running⟩

theorem inv_powerOn {p : Params} (h : paramsLegal p) : (State.powerOn p).Inv where
  chainLen_ne_zero := h.1
  params_legal := h
  chain_length := freeChain_length _ _
  idle := fun _ => ⟨rfl, rfl, rfl, rfl⟩
  running := fun hbusy => absurd hbusy Bool.false_ne_true

/-- The head of what is pending keeps the discipline, so the rest keeps it from the line's new level; after the last
event that level is deasserted (R108, R39). -/
theorem inv_emitHead (h : s.Inv) (hbusy : s.busy = true) : (emitHead s).Inv := by
  obtain ⟨hne, hok, hcs⟩ := h.running hbusy
  obtain ⟨e, es, hp⟩ := List.exists_cons_of_ne_nil hne
  have hline : (emitHead s).csAsserted = csAfter s.csAsserted [e] := by simp [emitHead_csAsserted, hp]
  have hrest : csDiscipline (csAfter s.csAsserted [e]) es = true := csDiscipline_cons (hp ▸ hcs)
  have hpending : (emitHead s).pending = es := by simp [hp]
  have hchainLen : (emitHead s).chainLen ≠ 0 := by simpa using h.chainLen_ne_zero
  have hlegal : paramsLegal (emitHead s).params := by simpa using h.params_legal
  have hlength : (emitHead s).chain.length = (emitHead s).params.nPhys.toNat := by simpa using h.chain_length
  by_cases hes : es = []
  · subst hes
    have hdeasserted : csAfter s.csAsserted [e] = false := csAfter_of_csDiscipline [] _ hrest
    obtain ⟨hidle, -, -, hpendStatus, hpendResult, -⟩ := emitHead_of_last_frame hp
    exact ⟨hchainLen, hlegal, hlength, fun _ => ⟨hpending, hpendStatus, hpendResult, hline.trans hdeasserted⟩,
      fun hbusy' => by simp [hidle] at hbusy'⟩
  · obtain ⟨hmore, -, -, hpendStatus, -⟩ := emitHead_of_more_frame hp hes
    exact ⟨hchainLen, hlegal, hlength, fun hidle => by simp [hmore, hbusy] at hidle,
      fun _ => ⟨hpending ▸ hes, hpendStatus.trans hok, by rw [hline, hpending]; exact hrest⟩⟩

/-- An accepted command waits with its events under the discipline, or it has completed (R35, R37, R108). -/
theorem inv_exec {i : Instr} (h : s.Inv) (hidle : s.busy = false) (hexec : exec i s = .next t) : t.Inv := by
  obtain ⟨hpending, hpendStatus, hpendResult, hcs⟩ := h.idle hidle
  have hchainLen : t.chainLen ≠ 0 := by
    rcases exec_chainLen hexec with heq | ⟨n, hn, -, heq⟩ <;> rw [heq]
    exacts [h.chainLen_ne_zero, hn]
  have hdiscipline := (exec_disciplines hpending hexec).1
  cases exec_outcome hexec with
  | pends hevs =>
    exact ⟨hchainLen, h.params_legal, h.chain_length, by simp,
      fun _ => ⟨hevs, rfl, by simpa [hcs] using hdiscipline⟩⟩
  | errs _ | succeeds _ _ =>
    exact ⟨hchainLen, h.params_legal, h.chain_length, fun _ => ⟨hpending, hpendStatus, hpendResult, hcs⟩,
      by simp [hidle]⟩

theorem inv_report (h : s.Inv) (hidle : s.busy = false) (c : Status) (res : Byte) : (s.report c res).Inv :=
  ⟨h.chainLen_ne_zero, h.params_legal, h.chain_length, h.idle, by simp [hidle]⟩

end

end Sys2Proof.Machine

open Sys2Proof Sys2Proof.Machine

/-- Settles O19: one case for each thing a step can do. -/
theorem stepKeepsTheInvariant : Obligations.StepKeepsTheInvariant := by
  intro s t hinv h
  have htaken := inv_takePins hinv
  rcases step_cases s with ⟨-, hreset⟩ | ⟨-, hbusy, -, hack⟩ | ⟨-, -, -, hwait⟩ | ⟨-, -, -, hwait⟩
    | ⟨-, hidle, -, i, -, hexec⟩ | ⟨-, hidle, -, -, -, hillegal⟩
  · obtain rfl : blockReset s.takePins = t := by simpa [hreset] using h
    exact inv_blockReset htaken
  · obtain rfl : emitHead s.takePins = t := by simpa [hack] using h
    exact inv_emitHead htaken hbusy
  · obtain rfl : s.takePins = t := by simpa [hwait] using h
    exact htaken
  · obtain rfl : s.takePins = t := by simpa [hwait] using h
    exact htaken
  · exact inv_exec htaken hidle (hexec ▸ h)
  · obtain rfl : acceptIllegal s.takePins = t := by simpa [hillegal] using h
    exact inv_report htaken hidle _ _

/-- Settles O18: the default parameters are legal. -/
theorem powerOnMeetsTheInvariant : Obligations.PowerOnMeetsTheInvariant :=
  ⟨inv_powerOn (by decide), fun _ => inv_powerOn⟩

/-- Settles O8: an idle block runs the word it is offered. -/
theorem stepRunsTheDecodedCommand : Obligations.StepRunsTheDecodedCommand := by
  intro s i hrst hvalid hidle hdecode
  rw [step_of_word hrst hidle hvalid, runWord, hdecode]
  rfl

/-- Settles O9: the word offered is the command's own, so it decodes to the command. -/
theorem fetchWordRunsItsInstruction : Obligations.FetchWordRunsItsInstruction := by
  intro s i
  have hword : BitVec.ofNat 32 ((encode i).toNat % 2 ^ 32) = encode i := by
    rw [Nat.mod_eq_of_lt (encode i).isLt, BitVec.ofNat_toNat, BitVec.setWidth_eq]
  exact stepRunsTheDecodedCommand (s.withFetchWord 32 (encode i).toNat) i rfl rfl rfl
    ((congrArg decode hword).trans (decode_encode i))

/-- Settles O10: the report of IllegalCommand is all that happens. -/
theorem illegalWordOnlyReportsIllegalCommand : Obligations.IllegalWordOnlyReportsIllegalCommand := by
  intro s e hrst hvalid hidle hdecode
  rw [step_of_word hrst hidle hvalid, runWord, hdecode]
  rfl

/-- Settles O11: a BUSY step reads only reset and the acknowledgement; after the last event the held word is offered to
an idle block. -/
theorem busyBlockIgnoresTheCommandPort : Obligations.BusyBlockIgnoresTheCommandPort := by
  refine ⟨fun s ack v v' w w' rest hbusy => ?_, fun s e w a i rest hbusy hp hdecode hinputs => ?_⟩
  · rw [step_of_busy hbusy rfl, step_of_busy hbusy rfl]
  · obtain ⟨hidle, -⟩ := emitHead_of_last_frame (s := s.takePins) hp
    have hnext : (emitHead s.takePins).nextPins = { rst := false, cmdValid := true, cmdWord := w, evAck := a } := by
      simp [State.nextPins, hinputs]
    have hrest : (emitHead s.takePins).inputs.tail = rest := by simp [hinputs]
    refine ⟨emitHead s.takePins, step_of_ack ?_ hbusy ?_, hidle, by simp [hp], ?_⟩
    · simp [State.nextPins, hinputs]
    · simp [State.nextPins, hinputs]
    · rw [← hrest]
      exact stepRunsTheDecodedCommand _ i (by rw [hnext]) (by rw [hnext]) hidle (by rw [hnext]; exact hdecode)

/-- Settles O12: nothing but the schedule moves on. -/
theorem nothingEnabledNothingChanges : Obligations.NothingEnabledNothingChanges :=
  fun _ hrst h => ⟨step_of_wait hrst h, rfl⟩

/-- Settles O13: the emit step, for the last event and for one before it. -/
theorem acknowledgementEmitsTheHead : Obligations.AcknowledgementEmitsTheHead := by
  intro s e es hrst hack hbusy hp
  have hp' : s.takePins.pending = e :: es := hp
  refine ⟨emitHead s.takePins, step_of_ack hrst hbusy hack, by simp [hp], by simp [hp], by simp, by simp, ?_, ?_,
    fun hes => ?_, fun hes => ?_⟩
  · rw [emitHead_csAsserted, hp']
    cases e <;> rfl
  · rw [emitHead_chain hp']
    match e with
    | .sel true => rfl
    | .sel false => rfl
    | .tx _ => rfl
    | .delay _ => rfl
  · obtain ⟨hbusy', hrest⟩ := emitHead_of_more_frame hp' hes
    exact ⟨hbusy'.trans hbusy, hrest⟩
  · exact emitHead_of_last_frame (hes ▸ hp')

/-- Settles O15: the reset state of the block, register by register. -/
theorem resetReturnsEveryBlockRegister : Obligations.ResetReturnsEveryBlockRegister :=
  fun s hrst => ⟨_, step_of_reset hrst, rfl, rfl, rfl, rfl, rfl, rfl, rfl, rfl, blockReset_emitted s.takePins,
    blockReset_completions s.takePins, blockReset_inputs s.takePins, blockReset_params s.takePins⟩

/-- Settles O16: in mid-frame the chain is redrawn, each byte with a draw of its own block. -/
theorem resetTouchesDevicesOnlyInAFrame : Obligations.ResetTouchesDevicesOnlyInAFrame := by
  intro s t hrst h
  obtain rfl : blockReset s.takePins = t := by simpa [step_of_reset hrst] using h
  have hchain := blockReset_chain s.takePins
  have hdraws := blockReset_draws s.takePins
  refine ⟨fun hcs => ?_, fun hcs => ⟨by simp, fun dev hdev c hc => ?_⟩⟩
  · simpa [hcs] using And.intro hchain hdraws
  · simp only [takePins_csAsserted, hcs, if_true] at hchain hdraws
    rw [hdraws]
    exact freeChain_cells _ _ (hchain ▸ hdev) hc

/-- Settles O17: the power-on state with the default parameters, its one device drawn afresh. -/
theorem resetStateHoldsTheResetValues : Obligations.ResetStateHoldsTheResetValues := by
  refine ⟨rfl, rfl, rfl, rfl, rfl, rfl, rfl, rfl, rfl, rfl, rfl, rfl, rfl, rfl, rfl, fun dev hdev c hc => ?_⟩
  obtain ⟨i, -, -, rfl⟩ := freeChain_cells _ _ hdev hc
  exact ⟨i, rfl⟩

/-- Settles O20: every thing a step can do answers, on the same parameters and as many devices. -/
theorem stepNeverStopsAndKeepsParameters : Obligations.StepNeverStopsAndKeepsParameters := by
  intro s
  rcases step_shape s with ⟨-, hreset⟩ | ⟨-, -, -, hack⟩ | ⟨-, hwait⟩ | ⟨-, -, -, -, r, hexec⟩
  · exact ⟨_, hreset, by simp, by simp⟩
  · exact ⟨_, hack, by simp, by simp⟩
  · exact ⟨_, hwait, rfl, rfl⟩
  · exact ⟨_, hexec, by simp, by simp⟩

/-- Settles O22: only the emit step moves an event, from the head of PENDING to the end of what was emitted. -/
theorem emissionKeepsTheOrderOfAcceptance : Obligations.EmissionKeepsTheOrderOfAcceptance := by
  intro s t h
  rcases step_shape s with ⟨hrst, hreset⟩ | ⟨-, -, -, hack⟩ | ⟨-, hwait⟩ | ⟨-, hidle, -, -, r, hexec⟩
  · obtain rfl : blockReset s.takePins = t := by simpa [hreset] using h
    exact ⟨by simp, fun hrst' => by simp [hrst] at hrst'⟩
  · obtain rfl : emitHead s.takePins = t := by simpa [hack] using h
    refine ⟨by simp, fun _ _ => ?_⟩
    cases hp : s.pending <;> simp [hp]
  · obtain rfl : s.takePins = t := by simpa [hwait] using h
    exact ⟨by simp, fun _ _ => rfl⟩
  · obtain rfl : accept r s.takePins = t := by simpa [hexec] using h
    exact ⟨by simp, fun _ hbusy => by simp [hidle] at hbusy⟩

/-- Settles O23: of the things a step can do, only the acceptance of a command writes CHAIN_LEN. -/
theorem onlySetChainLengthChangesTheChainLength : Obligations.OnlySetChainLengthChangesTheChainLength := by
  intro s t hrst h hne
  rcases step_cases s with ⟨hrst', -⟩ | ⟨-, -, -, hack⟩ | ⟨-, -, -, hwait⟩ | ⟨-, -, -, hwait⟩
    | ⟨-, hidle, hvalid, i, hdecode, hexec⟩ | ⟨-, -, -, -, -, hillegal⟩
  · simp [hrst] at hrst'
  · obtain rfl : emitHead s.takePins = t := by simpa [hack] using h
    simp at hne
  · obtain rfl : s.takePins = t := by simpa [hwait] using h
    simp at hne
  · obtain rfl : s.takePins = t := by simpa [hwait] using h
    simp at hne
  · rcases exec_chainLen (hexec ▸ h) with heq | ⟨n, hn, rfl, heq⟩
    · exact absurd heq hne
    · exact ⟨n, hn, hidle, hvalid, hdecode, heq⟩
  · obtain rfl : acceptIllegal s.takePins = t := by simpa [hillegal] using h
    simp [acceptIllegal] at hne

end

section
/-! PROOFS. A command to its completion: every acknowledgement of a pending command taken together, whatever the
schedule, and the commands one after another (spec/10_state.md §4, spec/20_memory.md §4, §6). -/

namespace Sys2Proof.Machine

/-! ### All acknowledgements of a command -/

/-- What these acknowledged events do to the line and the devices, one after the other. -/
def ackAll (evs : List BusEvent) (s : State) : State := evs.foldl (fun t e => onAck e t) s

@[simp] theorem ackAll_nil (s : State) : ackAll [] s = s := rfl
@[simp] theorem ackAll_cons (e : BusEvent) (es : List BusEvent) (s : State) :
    ackAll (e :: es) s = ackAll es (onAck e s) := rfl
theorem ackAll_append (xs ys : List BusEvent) (s : State) : ackAll (xs ++ ys) s = ackAll ys (ackAll xs s) :=
  List.foldl_append

/-- What no sequence of acknowledged events changes. -/
theorem ackAll_frame (evs : List BusEvent) : ∀ s,
    (ackAll evs s).chainLen = s.chainLen ∧ (ackAll evs s).pendStatus = s.pendStatus
      ∧ (ackAll evs s).pendResult = s.pendResult ∧ (ackAll evs s).inputs = s.inputs
      ∧ (ackAll evs s).emitted = s.emitted ∧ (ackAll evs s).completions = s.completions
      ∧ (ackAll evs s).params = s.params ∧ (ackAll evs s).chain.length = s.chain.length := by
  induction evs with
  | nil => intro s; exact ⟨rfl, rfl, rfl, rfl, rfl, rfl, rfl, rfl⟩
  | cons e es ih =>
    intro s
    obtain ⟨hchainLen, -, -, -, -, hpendStatus, hpendResult, hinputs, hemitted, hcompletions, hparams⟩ :=
      onAck_frame e s
    simpa only [ackAll_cons, hchainLen, hpendStatus, hpendResult, hinputs, hemitted, hcompletions, hparams,
      onAck_chain_length] using ih (onAck e s)

@[simp] theorem ackAll_params (evs : List BusEvent) (s : State) : (ackAll evs s).params = s.params := by
  obtain ⟨-, -, -, -, -, -, h, -⟩ := ackAll_frame evs s; exact h
@[simp] theorem ackAll_chain_length (evs : List BusEvent) (s : State) :
    (ackAll evs s).chain.length = s.chain.length := by
  obtain ⟨-, -, -, -, -, -, -, h⟩ := ackAll_frame evs s; exact h

theorem ackAll_csAsserted (evs : List BusEvent) : ∀ s, (ackAll evs s).csAsserted = csAfter s.csAsserted evs := by
  induction evs with
  | nil => intro s; rfl
  | cons e es ih => intro s; rw [ackAll_cons, ih, onAck_csAsserted]; rfl

theorem drain_of_pending_nil {s : State} (h : s.pending = []) : drain s = s := by simp [drain, h]

/-- The first acknowledgement, and then the rest. -/
theorem drain_emitHead (s : State) : drain (emitHead s) = drain s := by
  cases hp : s.pending with
  | nil => rw [emitHead_of_pending_nil hp]
  | cons e es => simp [drain, hp]

/-- Events that touch other fields do not disturb these two. -/
theorem ackAll_with (evs : List BusEvent) (p xs : List BusEvent) : ∀ s : State,
    ackAll evs { s with pending := p, emitted := xs } = { ackAll evs s with pending := p, emitted := xs } := by
  induction evs with
  | nil => intro s; rfl
  | cons e es ih =>
    intro s
    have hack : onAck e { s with pending := p, emitted := xs } = { onAck e s with pending := p, emitted := xs } := by
      match e with
      | .sel true => rfl
      | .sel false => rfl
      | .tx _ => rfl
      | .delay _ => rfl
    rw [ackAll_cons, hack, ih, ackAll_cons]

/-- A pending command, fully acknowledged: its events have taken effect and are emitted, and it has completed. -/
theorem drain_eq (evs : List BusEvent) : ∀ s : State, s.pending = evs → evs ≠ [] →
    drain s = complete { ackAll evs s with pending := [], emitted := s.emitted ++ evs } := by
  induction evs with
  | nil => intro s _ hne; exact absurd rfl hne
  | cons e es ih =>
    intro s hp _
    rw [← drain_emitHead, emitHead_eq hp]
    split
    next hes =>
      subst hes
      exact drain_of_pending_nil rfl
    next hes =>
      rw [ih (s.ackHead e es) rfl hes, State.ackHead, ackAll_with]
      simp

section
variable {s : State} (hp : s.pending ≠ [])
include hp

theorem drain_of_pending :
    drain s = complete { ackAll s.pending s with pending := [], emitted := s.emitted ++ s.pending } :=
  drain_eq s.pending s rfl hp

/-- What the completion of a pending command leaves on the status port and in the sequencer (R37). -/
theorem drain_registers :
    (drain s).busy = false ∧ (drain s).status = s.pendStatus ∧ (drain s).result = s.pendResult
      ∧ (drain s).completions = s.completions ++ [s.pendStatus] := by
  obtain ⟨-, hpendStatus, hpendResult, -, -, hcompletions, -⟩ := ackAll_frame s.pending s
  rw [drain_of_pending hp]
  simp [hpendStatus, hpendResult, hcompletions]

theorem drain_csAsserted : (drain s).csAsserted = csAfter s.csAsserted s.pending := by
  rw [drain_of_pending hp]
  exact ackAll_csAsserted s.pending s

theorem drain_chain : (drain s).chain = (ackAll s.pending s).chain := by rw [drain_of_pending hp]; rfl

end

section
variable (s : State)

theorem drain_pending : (drain s).pending = [] := by
  by_cases hp : s.pending = []
  · rw [drain_of_pending_nil hp, hp]
  · rw [drain_of_pending hp]; rfl

theorem drain_emitted : (drain s).emitted = s.emitted ++ s.pending := by
  by_cases hp : s.pending = []
  · rw [drain_of_pending_nil hp, hp, List.append_nil]
  · rw [drain_of_pending hp]; rfl

/-- What a command's acknowledgements never change. -/
theorem drain_frame :
    (drain s).chainLen = s.chainLen ∧ (drain s).params = s.params ∧ (drain s).inputs = s.inputs
      ∧ (drain s).chain.length = s.chain.length := by
  by_cases hp : s.pending = []
  · rw [drain_of_pending_nil hp]; exact ⟨rfl, rfl, rfl, rfl⟩
  · obtain ⟨hchainLen, -, -, hinputs, -, -, hparams, hlength⟩ := ackAll_frame s.pending s
    rw [drain_of_pending hp]
    exact ⟨hchainLen, hparams, hinputs, hlength⟩

end

/-! ### The schedule -/

section
variable (s : State) (ps : List Pins)

theorem onAck_withInputs (e : BusEvent) :
    onAck e { s with inputs := ps } = { onAck e s with inputs := ps } := by
  match e with
  | .sel true => rfl
  | .sel false => rfl
  | .tx _ => rfl
  | .delay _ => rfl

theorem emitHead_withInputs : emitHead { s with inputs := ps } = { emitHead s with inputs := ps } := by
  by_cases hp : s.pending = []
  · rw [emitHead_of_pending_nil hp, emitHead_of_pending_nil (s := { s with inputs := ps }) hp]
  · obtain ⟨e, es, hp⟩ := List.exists_cons_of_ne_nil hp
    rw [emitHead_eq hp, emitHead_eq (s := { s with inputs := ps }) hp, State.ackHead, State.ackHead, onAck_withInputs]
    split <;> rfl

theorem accept_withInputs (r : Reply) : accept r { s with inputs := ps } = { accept r s with inputs := ps } := by
  rw [accept_eq, accept_eq]
  split <;> rfl

/-- No command reads the schedule. -/
theorem exec_withInputs {i : Instr} {t : State} (h : exec i s = .next t) :
    exec i { s with inputs := ps } = .next { t with inputs := ps } := by
  obtain ⟨r, hs, hs'⟩ := exec_same_answer i (s := s) (s' := { s with inputs := ps }) rfl rfl
  obtain rfl : accept r s = t := by simpa [hs] using h
  rw [hs', accept_withInputs]

end

/-- A run goes on from the state its first step answers. -/
theorem run_succ {M : Host.Core} {s t : M.State} (k : Nat) (h : M.step s = .next t) : M.run (k + 1) s = M.run k t := by
  rw [Host.Core.run, h]

theorem core_run_succ {s t : State} (k : Nat) (h : step s = .next t) :
    Sys2Proof.core.run (k + 1) s = Sys2Proof.core.run k t :=
  run_succ (M := Sys2Proof.core) k h

/-- One step of a BUSY machine with the first pins of its schedule (R34, R36). -/
theorem run_busy {s : State} {p : Pins} {ps : List Pins} (k : Nat) (hbusy : s.busy = true) (hrst : p.rst = false) :
    Sys2Proof.core.run (k + 1) { s with inputs := p :: ps }
      = Sys2Proof.core.run k { (if p.evAck then emitHead s else s) with inputs := ps } := by
  rw [core_run_succ k (step_of_busy hbusy hrst)]
  split
  · rw [emitHead_withInputs]
  · rfl

/-- Waits change nothing and acknowledgements take the events one by one, until the last one completes the command. -/
theorem run_schedule (last : Pins) (hlast : last.evAck = true) (hlastRst : last.rst = false) (ps : List Pins) :
    ∀ s : State, s.busy = true → (∀ p ∈ ps, p.rst = false) →
      (ps.filter (fun p => p.evAck)).length + 1 = s.pending.length →
      Sys2Proof.core.run (ps.length + 1) { s with inputs := ps ++ [last] } = .next { drain s with inputs := [] } := by
  induction ps with
  | nil =>
    intro s hbusy _ hcount
    obtain ⟨e, he⟩ := List.length_eq_one_iff.mp hcount.symm
    have hdone : drain s = emitHead s := by
      rw [← drain_emitHead, drain_of_pending_nil]
      simp [he]
    rw [List.nil_append, run_busy _ hbusy hlastRst, if_pos hlast, hdone]
    rfl
  | cons p ps ih =>
    intro s hbusy hrst hcount
    obtain ⟨hp, hps⟩ := List.forall_mem_cons.mp hrst
    rw [List.cons_append, List.length_cons, run_busy _ hbusy hp]
    cases hack : p.evAck with
    | false =>
      rw [List.filter_cons_of_neg (by simp [hack])] at hcount
      exact ih s hbusy hps hcount
    | true =>
      rw [List.filter_cons_of_pos hack, List.length_cons] at hcount
      obtain ⟨e, es, he⟩ : ∃ e es, s.pending = e :: es := List.exists_cons_of_length_pos (by omega)
      have hmore : es ≠ [] := by rintro rfl; rw [he, List.length_singleton] at hcount; omega
      rw [← drain_emitHead]
      refine ih (emitHead s) ((emitHead_of_more_frame he hmore).1.trans hbusy) hps ?_
      rw [emitHead_pending, he, List.tail_cons]
      exact Nat.succ.inj (hcount.trans (by rw [he, List.length_cons]))

/-- The machine runs a command: its word is accepted in the first step, and each further step acknowledges one of its
events. -/
theorem commandRun_eq {i : Instr} {s : State} {evs : List BusEvent} {n : Nat} (hidle : s.busy = false)
    (hexec : exec i s = .next (s.pend evs)) (hn : n ≠ 0) (hlen : evs.length = n) :
    commandRun i n s = .next { drain (s.pend evs) with inputs := [] } := by
  obtain ⟨m, rfl⟩ := Nat.exists_eq_succ_of_ne_zero hn
  have hstep : step { s with inputs := Pins.command (encode i) :: List.replicate (m + 1) Pins.ack }
      = .next { s.pend evs with inputs := List.replicate (m + 1) Pins.ack } := by
    rw [← exec_withInputs s _ hexec]
    exact stepRunsTheDecodedCommand _ i rfl rfl hidle (decode_encode i)
  have hacks : ((List.replicate m Pins.ack).filter (fun p => p.evAck)).length + 1 = (s.pend evs).pending.length := by
    rw [List.filter_replicate_of_pos rfl, List.length_replicate]
    exact hlen.symm
  have hrun := run_schedule Pins.ack rfl rfl (List.replicate m Pins.ack) (s.pend evs) rfl
    (fun p hp => by rw [List.eq_of_mem_replicate hp]; rfl) hacks
  rw [commandRun, Nat.succ_eq_add_one, core_run_succ _ hstep, List.replicate_succ']
  rwa [List.length_replicate] at hrun

/-! ### Commands one after the other -/

theorem afterCommand_eq {i : Instr} {s t : State} (h : exec i s = .next t) : afterCommand i s = some (drain t) := by
  simp [afterCommand, h]

theorem afterCommands_cons {i : Instr} {is : List Instr} {s t : State} (h : afterCommand i s = some t) :
    afterCommands (i :: is) s = afterCommands is t := by
  simp [afterCommands, h]

/-- An answer played out from an idle block, with events or without. -/
theorem drain_accept {s : State} (r : Reply) (hidle : s.busy = false) (hpending : s.pending = []) :
    (drain (accept r s)).emitted = s.emitted ++ r.events
      ∧ (drain (accept r s)).completions = s.completions ++ [r.status]
      ∧ (drain (accept r s)).busy = false ∧ (drain (accept r s)).pending = []
      ∧ (drain (accept r s)).chainLen = r.chainLen ∧ (drain (accept r s)).params = s.params := by
  obtain ⟨hchainLen, hparams, -⟩ := drain_frame (accept r s)
  rw [accept_chainLen] at hchainLen
  rw [accept_params] at hparams
  by_cases hev : r.events = []
  · have hdone : drain (accept r s) = accept r s := drain_of_pending_nil (by rw [accept_pending, if_pos hev, hpending])
    rw [hdone, accept_eq, if_pos hev]
    simp [hev, hidle, hpending]
  · have hp : (accept r s).pending = r.events := by rw [accept_pending, if_neg hev]
    obtain ⟨hbusy, -, -, hcompletions⟩ := drain_registers (s := accept r s) (hp ▸ hev)
    refine ⟨by rw [drain_emitted, accept_emitted, hp], ?_, hbusy, drain_pending _, hchainLen, hparams⟩
    rw [hcompletions, accept_eq, if_neg hev]

/-- A command with a device operand, played out: its status is the device check's (R103, R148). -/
theorem afterCommand_onDevice {i : Instr} {s : State} {d : Byte} {evs : List BusEvent} (hidle : s.busy = false)
    (hpending : s.pending = []) (hexec : exec i s = .next (accept (replyOnDevice s d evs) s)) :
    ∃ t, afterCommand i s = some t ∧ t.chainLen = s.chainLen ∧ t.busy = false
      ∧ t.completions = s.completions
          ++ [if 1 ≤ d.toNat ∧ d.toNat ≤ s.chainLen.toNat then .ok else .invalidDevice] := by
  obtain ⟨-, hcompletions, hbusy, -, hchainLen, -⟩ := drain_accept (replyOnDevice s d evs) hidle hpending
  refine ⟨_, afterCommand_eq hexec, hchainLen.trans (replyOnDevice_chainLen s d evs), hbusy, ?_⟩
  rw [hcompletions]
  simp only [← validDev_iff]
  rcases replyOnDevice_cases s d evs with ⟨hvalid, hreply⟩ | ⟨hinvalid, hreply⟩ <;> rw [hreply]
  · rw [if_pos hvalid]; rfl
  · rw [if_neg (by simp [hinvalid])]; rfl

/-! ### The acceptance of one word from two states -/

/-- A word gets the same answer from states that agree on CHAIN_LEN and the parameters (R22). -/
theorem runWord_same_answer (w : Word) {s s' : State} (hn : s.chainLen = s'.chainLen) (hp : s.params = s'.params) :
    ∃ r, runWord w s = .next (accept r s) ∧ runWord w s' = .next (accept r s') := by
  unfold runWord
  cases decode w with
  | ok i => exact exec_same_answer i hn hp
  | error e =>
    refine ⟨Reply.raise s .illegalCommand, rfl, ?_⟩
    simp only [acceptIllegal, Reply.raise, hn]

/-! ### What the devices hold after a step -/

/-- The registers of the devices say all that can be read of them. -/
theorem devReg_congr {s t : State} (h : t.chain.map Device.regs = s.chain.map Device.regs) (j : Nat) (n : RegName) :
    t.devReg j n = s.devReg j n := by
  cases j with
  | zero => rfl
  | succ j =>
    have hj := congrArg (fun l => (l[j]?).bind (fun f => (f.read n).map Cell.value)) h
    simpa [State.devReg, Option.bind_map, Function.comp_def] using hj

/-- Only a `Sel(false)` can change a register (R62 to R64). -/
theorem onAck_regs {e : BusEvent} (he : e ≠ .sel false) (s : State) :
    (onAck e s).chain.map Device.regs = s.chain.map Device.regs := by
  match e with
  | .sel true => rfl
  | .sel false => exact absurd rfl he
  | .tx b => exact shiftIn_regs s.chain (.known b)
  | .delay _ => rfl

end Sys2Proof.Machine

open Sys2Proof Sys2Proof.Machine

/-- Settles O24: a reset outside a frame, an event other than `Sel(false)`, a wait and an acceptance leave every
register. -/
theorem deviceRegistersChangeOnlyAtDeselection : Obligations.DeviceRegistersChangeOnlyAtDeselection := by
  intro s t j n h
  rw [← not_imp_not, not_ne_iff]
  intro hno
  rcases step_shape s with ⟨hrst, hreset⟩ | ⟨hrst, hbusy, hack, hemit⟩ | ⟨-, hwait⟩ | ⟨-, -, -, -, r, hexec⟩
  · obtain rfl : blockReset s.takePins = t := by simpa [hreset] using h
    have hcs : s.csAsserted = false := Bool.eq_false_iff.mpr fun hcs => hno (.inr ⟨hrst, hcs⟩)
    exact devReg_congr (by simp [blockReset_chain, hcs]) j n
  · obtain rfl : emitHead s.takePins = t := by simpa [hemit] using h
    cases hp : s.takePins.pending with
    | nil => rw [emitHead_of_pending_nil hp]; rfl
    | cons e es =>
      have he : e ≠ .sel false := by
        rintro rfl
        exact hno (.inl ⟨hrst, hack, hbusy, by rw [← takePins_pending, hp]; rfl⟩)
      exact devReg_congr (by rw [emitHead_chain hp]; exact onAck_regs he _) j n
  · obtain rfl : s.takePins = t := by simpa [hwait] using h
    rfl
  · obtain rfl : accept r s.takePins = t := by simpa [hexec] using h
    exact devReg_congr (by simp) j n

/-- Settles O25: the last acknowledgement and an answer without events write the status; nothing else does. -/
theorem statusIsWrittenOnlyAtCompletion : Obligations.StatusIsWrittenOnlyAtCompletion := by
  refine ⟨⟨rfl, rfl, rfl, rfl⟩, fun s => ⟨rfl, rfl, rfl, ?_, by simp [State.cmdReady]⟩, fun s t hrst h => ?_⟩
  · rw [State.statusPort]
    cases s.status <;> rfl
  · rcases step_shape s with ⟨hrst', -⟩ | ⟨-, -, -, hack⟩ | ⟨-, hwait⟩ | ⟨-, hidle, -, -, r, hexec⟩
    · simp [hrst] at hrst'
    · obtain rfl : emitHead s.takePins = t := by simpa [hack] using h
      cases hp : s.takePins.pending with
      | nil => rw [emitHead_of_pending_nil hp]; exact .inl ⟨rfl, rfl, rfl⟩
      | cons e es =>
        by_cases hes : es = []
        · obtain ⟨hidle, hstatus, -, -, -, hcompletions⟩ := emitHead_of_last_frame (hes ▸ hp)
          exact .inr ⟨by rw [hstatus]; exact hcompletions, hidle⟩
        · obtain ⟨-, hstatus, hresult, -, -, hcompletions⟩ := emitHead_of_more_frame hp hes
          exact .inl ⟨hcompletions, hstatus, hresult⟩
    · obtain rfl : s.takePins = t := by simpa [hwait] using h
      exact .inl ⟨rfl, rfl, rfl⟩
    · obtain rfl : accept r s.takePins = t := by simpa [hexec] using h
      rw [accept_eq]
      split
      · exact .inr ⟨rfl, hidle⟩
      · exact .inl ⟨rfl, rfl, rfl⟩

/-- Settles O26: all acknowledgements taken together, field by field. -/
theorem acknowledgedCommandPlaysOut : Obligations.AcknowledgedCommandPlaysOut := by
  intro s _ hp
  obtain ⟨hbusy, hstatus, hresult, hcompletions⟩ := drain_registers hp
  obtain ⟨hchainLen, hparams, hinputs, -⟩ := drain_frame s
  exact ⟨drain_emitted s, drain_pending s, hbusy, drain_csAsserted hp, hstatus, hresult, hcompletions, hchainLen,
    hparams, hinputs⟩

/-- Settles O27: by induction on the schedule before its last step. -/
theorem everyScheduleReachesTheSameCompletion : Obligations.EveryScheduleReachesTheSameCompletion := by
  intro s ps last hbusy _ hrst hlast hcount
  have hcount' : (ps.filter (fun p => p.evAck)).length + 1 = s.pending.length := by simpa [hlast] using hcount
  exact run_schedule last hlast (hrst last (by simp)) ps s hbusy (fun p hp => hrst p (by simp [hp])) hcount'

/-- Settles O28: both states accept the same answer. -/
theorem commandDependsOnlyOnWordAndChainLength : Obligations.CommandDependsOnlyOnWordAndChainLength := by
  intro w s s' t t' hn hp hidle hidle' hpending hpending' h h'
  obtain ⟨r, hs, hs'⟩ := runWord_same_answer w hn hp
  obtain rfl : accept r s = t := by simpa [hs] using h
  obtain rfl : accept r s' = t' := by simpa [hs'] using h'
  rw [accept_eq, accept_eq]
  split <;> simp [hidle, hidle', hpending, hpending']

/-- Settles O49: SET_CHAIN_LENGTH completes at once, and the next command's device check reads the new CHAIN_LEN. -/
theorem nextCommandSeesTheNewChainLength : Obligations.NextCommandSeesTheNewChainLength := by
  intro s n d k v dm r inten sl hn hidle hpending hk1 hk8
  obtain ⟨q, hq⟩ := Option.isSome_iff_exists.mp ((digitReg_isSome_iff k).mpr ⟨hk1, hk8⟩)
  obtain ⟨u, hset, hchainLen, hidle', hpending', hcompletions⟩ : ∃ u, afterCommand (.setChainLength n) s = some u
      ∧ u.chainLen = n ∧ u.busy = false ∧ u.pending = [] ∧ u.completions = s.completions ++ [.ok] := by
    have hexec : exec (.setChainLength n) s
        = .next (accept { status := .ok, result := n, events := [], chainLen := n } s) := if_neg hn
    obtain ⟨-, hcompletions, hbusy, hnone, hchainLen, -⟩ :=
      drain_accept { status := .ok, result := n, events := [], chainLen := n } hidle hpending
    exact ⟨_, afterCommand_eq hexec, hchainLen, hbusy, hnone, hcompletions⟩
  have hnext {i : Instr} {evs : List BusEvent} (hexec : exec i u = .next (accept (replyOnDevice u d evs) u)) :
      ∃ t, afterCommands [.setChainLength n, i] s = some t ∧ t.chainLen = n ∧ t.busy = false
        ∧ t.completions = s.completions
            ++ [.ok, if 1 ≤ d.toNat ∧ d.toNat ≤ n.toNat then .ok else .invalidDevice] := by
    obtain ⟨t, ht, hkept, hbusy, hcompleted⟩ := afterCommand_onDevice hidle' hpending' hexec
    refine ⟨t, ?_, hkept.trans hchainLen, hbusy, by simp [hcompleted, hcompletions, hchainLen]⟩
    rw [afterCommands_cons hset, afterCommands_cons ht]
    rfl
  simp only [List.forall_mem_cons]
  exact ⟨hnext rfl, hnext rfl, hnext rfl, hnext rfl, hnext (exec_writeDigit_of_valid v hq),
    hnext (exec_writeDigit_of_valid 0x00 hq), hnext rfl, hnext rfl, fun _ hnil => absurd hnil List.not_mem_nil⟩

/-- Settles O50: the same answer, played out twice. -/
theorem repeatedCommandDoesTheSame : Obligations.RepeatedCommandDoesTheSame := by
  intro i s t u hidle hpending hn hst htu
  have hparams : t.params = s.params := by
    obtain ⟨r, hr⟩ := exec_next i s
    obtain rfl : drain (accept r s) = t := by simpa [afterCommand_eq hr] using hst
    obtain ⟨-, -, -, -, -, hparams⟩ := drain_accept r hidle hpending
    exact hparams
  obtain ⟨r, hr, hr'⟩ := exec_same_answer i hn.symm hparams.symm
  obtain rfl : drain (accept r s) = t := by simpa [afterCommand_eq hr] using hst
  obtain rfl : drain (accept r (drain (accept r s))) = u := by simpa [afterCommand_eq hr'] using htu
  obtain ⟨hemitted, hcompletions, hidle', hpending', -, -⟩ := drain_accept r hidle hpending
  obtain ⟨hemitted', hcompletions', -⟩ := drain_accept r hidle' hpending'
  exact ⟨⟨r.events, hemitted, hemitted'⟩, r.status, hcompletions, hcompletions'⟩

end

section
/-! PROOFS. The devices, frame by frame: what one frame of pairs leaves in every shift register and in every register
file of the chain (spec/20_memory.md §5, R61 to R64). -/

namespace Sys2Proof.Machine

/-! ### One byte, one pair, many pairs -/

/-- Device `j + 1` takes what device `j` lets go (R62). -/
theorem shiftIn_getElem?_succ (devs : List Device) : ∀ b j dev prev, devs[j + 1]? = some dev → devs[j]? = some prev →
    (shiftIn b devs)[j + 1]? = some { dev with a := dev.d, d := prev.a } := by
  induction devs with
  | nil => intro b j dev prev h; simp at h
  | cons first rest ih =>
    intro b j dev prev hdev hprev
    cases j with
    | zero =>
      obtain rfl : first = prev := by simpa using hprev
      cases rest with
      | nil => simp at hdev
      | cons second rest =>
        obtain rfl : second = dev := by simpa using hdev
        rfl
    | succ j => exact ih first.a j dev prev hdev hprev

/-- The chain's byte queue moves on by one byte (R61, R62). -/
theorem chainQueue_shiftIn (devs : List Device) : ∀ b, devs ≠ [] →
    chainQueue (shiftIn b devs) = (chainQueue devs).tail ++ [b] := by
  induction devs with
  | nil => intro b hne; exact absurd rfl hne
  | cons dev rest ih =>
    intro b _
    cases hrest : rest with
    | nil => rfl
    | cons next rest' =>
      subst hrest
      have hqueue : chainQueue (next :: rest') ≠ [] :=
        List.ne_nil_of_length_pos (by rw [chainQueue_length, List.length_cons]; omega)
      have hold : chainQueue (dev :: next :: rest') = chainQueue (next :: rest') ++ [dev.a, dev.d] := rfl
      have hnew : chainQueue (shiftIn b (dev :: next :: rest'))
          = chainQueue (shiftIn dev.a (next :: rest')) ++ [dev.d, b] := rfl
      rw [hold, hnew, ih dev.a (List.cons_ne_nil _ _), List.tail_append_of_ne_nil hqueue]
      simp

/-- What the shift registers of the chain hold, device 1 first. -/
def shiftRegs (devs : List Device) : List (Byte × Byte) := devs.map (fun dev => (dev.a.value, dev.d.value))

/-- These pairs enter the chain, the first one first. -/
def shiftPairs (ps : List (Byte × Byte)) (devs : List Device) : List Device :=
  ps.foldl (fun ds p => shiftIn (.known p.2) (shiftIn (.known p.1) ds)) devs

/-- A pair enters device 1, and every device takes the whole pair of the one before it. -/
theorem shiftRegs_shiftIn_pair (devs : List Device) : ∀ a d,
    shiftRegs (shiftIn d (shiftIn a devs)) = ((a.value, d.value) :: shiftRegs devs).take devs.length := by
  induction devs with
  | nil => intro a d; rfl
  | cons dev rest ih =>
    intro a d
    simp only [shiftIn, shiftRegs, List.map_cons, List.length_cons, List.take_succ_cons] at ih ⊢
    rw [ih]

theorem shiftPairs_regs (ps : List (Byte × Byte)) : ∀ devs,
    (shiftPairs ps devs).map Device.regs = devs.map Device.regs := by
  induction ps with
  | nil => intro devs; rfl
  | cons p ps ih => intro devs; rw [shiftPairs, List.foldl_cons, ← shiftPairs, ih, shiftIn_regs, shiftIn_regs]

/-- The last pair sent stands in device 1, the one before it in device 2, and what the chain held follows (R62). -/
theorem shiftRegs_shiftPairs (ps : List (Byte × Byte)) : ∀ devs,
    shiftRegs (shiftPairs ps devs) = (ps.reverse ++ shiftRegs devs).take devs.length := by
  induction ps with
  | nil => intro devs; simp [shiftPairs, shiftRegs]
  | cons p ps ih =>
    intro devs
    rw [shiftPairs, List.foldl_cons, ← shiftPairs, ih, shiftRegs_shiftIn_pair]
    simp [List.take_append, List.take_take, Cell.value]

/-! ### What a latch does -/

/-- A register write, read at any name. -/
theorem read_write (f : RegFile) (r q : RegName) (c : Cell) :
    (f.write r c).read q = if q = r ∧ q ≠ .noOp then some c else f.read q := by
  split
  next h =>
    obtain ⟨rfl, hq⟩ := h
    exact read_write_same hq f c
  next h =>
    by_cases hqr : q = r
    · obtain rfl : q = .noOp := by_contra fun hq => h ⟨hqr, hq⟩
      rfl
    · exact read_write_other hqr f c

/-- A device whose address byte has the nibble of a name writes its value byte to that register; `NO_OP` is no register
and keeps none (R64). -/
theorem latchDevice_of_addr {m : RegMap} (hm : regMapDecodable m) {r : RegName} (k : Nat) {dev : Device}
    (haddr : lowNibble dev.a.value = lowNibble (m.addr r)) :
    latchDevice m k dev = { dev with regs := dev.regs.write r dev.d } := by
  by_cases hr : r = .noOp
  · subst hr
    rw [latchDevice, haddr]
    rfl
  · rw [latchDevice, haddr, latchTarget_addr hm hr]

@[simp] theorem latchDevice_a (m : RegMap) (k : Nat) (dev : Device) : (latchDevice m k dev).a = dev.a := by
  rcases latchDevice_cases m k dev with h | ⟨n, h⟩ | h <;> rw [h]

@[simp] theorem latchDevice_d (m : RegMap) (k : Nat) (dev : Device) : (latchDevice m k dev).d = dev.d := by
  rcases latchDevice_cases m k dev with h | ⟨n, h⟩ | h <;> rw [h]

/-- Latching leaves the shift registers as they are. -/
theorem shiftRegs_latchAll (m : RegMap) (devs : List Device) : ∀ k, shiftRegs (latchAll m k devs) = shiftRegs devs := by
  induction devs with
  | nil => intro k; rfl
  | cons dev rest ih =>
    intro k
    simp only [shiftRegs, latchAll, List.map_cons, latchDevice_a, latchDevice_d] at ih ⊢
    rw [ih]

/-! ### One frame, as the claims about devices see it -/

theorem shiftReg_succ (s : State) (j : Nat) : s.shiftReg (j + 1) = (shiftRegs s.chain)[j]? := by
  simp [State.shiftReg, shiftRegs]

/-- There is no device 0, and none beyond the end of the chain. -/
theorem devReg_of_no_device {s : State} {j : Nat} (h : j = 0 ∨ s.chain.length < j) (q : RegName) :
    s.devReg j q = none := by
  cases j with
  | zero => rfl
  | succ j =>
    have hnone : s.chain[j]? = none := List.getElem?_eq_none (by omega)
    simp [State.devReg, hnone]

theorem ackAll_pairs (ps : List (Byte × Byte)) : ∀ s,
    ackAll (ps.flatMap (fun p => pair p.1 p.2)) s = { s with chain := shiftPairs ps s.chain } := by
  induction ps with
  | nil => intro s; rfl
  | cons p ps ih =>
    intro s
    rw [List.flatMap_cons, ackAll_append, ih]
    rfl

/-- A frame shifts its pairs in and latches once (R62 to R64). -/
theorem ackAll_pairFrame_chain (ps : List (Byte × Byte)) (s : State) :
    (ackAll (pairFrame ps) s).chain = latchAll s.params.regAddr s.draws (shiftPairs ps s.chain) := by
  rw [pairFrame, List.cons_append, ackAll_cons, ackAll_append, ackAll_pairs]
  rfl

section
variable {s : State} {ps : List (Byte × Byte)} {j : Nat}

/-- Device j holds the j-th pair from the end of the frame. -/
theorem shiftReg_of_frame (hj : 1 ≤ j) (hlen : j ≤ s.chain.length) (hps : j ≤ ps.length) :
    (ackAll (pairFrame ps) s).shiftReg j = ps[ps.length - j]? := by
  obtain ⟨i, rfl⟩ := Nat.exists_eq_succ_of_ne_zero (Nat.one_le_iff_ne_zero.mp hj)
  rw [Nat.succ_eq_add_one, shiftReg_succ, ackAll_pairFrame_chain, shiftRegs_latchAll, shiftRegs_shiftPairs,
    List.getElem?_take_of_lt (by omega), List.getElem?_append_left (by rw [List.length_reverse]; omega),
    List.getElem?_reverse (by omega), Nat.sub_sub, Nat.add_comm 1]

/-- A device beyond the frame's pairs holds what stood that many devices before it. -/
theorem shiftReg_beyond_frame (hlen : j ≤ s.chain.length) (hps : ps.length < j) :
    (ackAll (pairFrame ps) s).shiftReg j = s.shiftReg (j - ps.length) := by
  obtain ⟨i, rfl⟩ : ∃ i, j = ps.length + i + 1 := ⟨j - ps.length - 1, by omega⟩
  rw [shiftReg_succ, ackAll_pairFrame_chain, shiftRegs_latchAll, shiftRegs_shiftPairs,
    List.getElem?_take_of_lt (by omega), List.getElem?_append_right (by rw [List.length_reverse]; omega),
    List.length_reverse, show ps.length + i + 1 - ps.length = i + 1 by omega, shiftReg_succ, Nat.add_sub_cancel_left]

/-- A device that a frame leaves with a register's address writes that register and no other (R64). -/
theorem devReg_of_frame (hm : regMapDecodable s.params.regAddr) {a b : Byte} {r : RegName}
    (hpair : (ackAll (pairFrame ps) s).shiftReg j = some (a, b))
    (ha : lowNibble a = lowNibble (s.params.regAddr.addr r)) (q : RegName) :
    (ackAll (pairFrame ps) s).devReg j q = if q = r ∧ q ≠ .noOp then some b else s.devReg j q := by
  cases j with
  | zero => simp [State.shiftReg] at hpair
  | succ i =>
    rw [shiftReg_succ, ackAll_pairFrame_chain, shiftRegs_latchAll] at hpair
    obtain ⟨dev, hdev, hvalues⟩ : ∃ dev, (shiftPairs ps s.chain)[i]? = some dev
        ∧ (dev.a.value, dev.d.value) = (a, b) := by
      simpa [shiftRegs] using hpair
    obtain ⟨rfl, rfl⟩ := Prod.mk.inj hvalues
    obtain ⟨old, hold, hregs⟩ : ∃ old, s.chain[i]? = some old ∧ old.regs = dev.regs := by
      have hi := congrArg (·[i]?) (shiftPairs_regs ps s.chain)
      simpa [hdev, eq_comm] using hi
    have hnew : (ackAll (pairFrame ps) s).chain[i]? = some { dev with regs := dev.regs.write r dev.d } := by
      rw [ackAll_pairFrame_chain, latchAll_getElem?, hdev, Option.map_some, latchDevice_of_addr hm _ ha]
    simp only [State.devReg, hnew, hold, Option.bind_some, read_write, hregs]
    split <;> rfl

end

end Sys2Proof.Machine

open Sys2Proof Sys2Proof.Machine

/-- Settles O51: the queue, the registers, and the shift registers one by one. -/
theorem transmittedByteShiftsTheChain : Obligations.TransmittedByteShiftsTheChain := by
  intro b devs hne
  refine ⟨chainQueue_shiftIn devs b hne, shiftIn_regs devs b, fun dev hdev => ?_,
    fun j dev prev hdev hprev => shiftIn_getElem?_succ devs b j dev prev hdev hprev⟩
  obtain ⟨first, rest, rfl⟩ := List.exists_cons_of_ne_nil hne
  obtain rfl : first = dev := by simpa using hdev
  rfl

/-- Settles O52: each nibble is that of one register of the default map, or 0, or one of the two of no register. -/
theorem deselectionLatchesByAddressNibble : Obligations.DeselectionLatchesByAddressNibble := by
  intro k dev x hx
  have hnibble : lowNibble dev.a.value = BitVec.ofNat 4 x := by
    rw [← hx, BitVec.ofNat_toNat, BitVec.setWidth_eq]
  refine ⟨?_, fun r hx1 hx12 hr => ?_, ?_, fun hx1314 => ⟨latchDevice_a _ _ _, latchDevice_d _ _ _, fun r c hc => ?_⟩⟩
  · rintro rfl
    rw [latchDevice, hnibble]
    rfl
  · refine latchDevice_of_addr default_decodable k (hnibble.trans ?_)
    interval_cases x <;> (obtain rfl := Option.some.inj hr; rfl)
  · rintro rfl
    exact latchDevice_of_addr default_decodable k hnibble
  · have hfree : latchDevice RegMap.default k dev = { dev with regs := freeRegFile k } := by
      rw [latchDevice, hnibble]
      rcases hx1314 with rfl | rfl <;> rfl
    rw [hfree] at hc
    obtain ⟨i, -, rfl⟩ := read_freeRegFile k hc
    exact ⟨k + i, by omega, rfl⟩

end

section
/-! PROOFS. What a command leaves in the devices: commands run to their completion by the machine, on a chain of the
configured length and of another one (spec/20_memory.md R66 to R68, spec/70_reset_and_hazards.md R176). -/

namespace Sys2Proof.Machine

/-! ### A command played out -/

/-- What the events do to the devices is read from the devices and the address map alone. -/
theorem ackAll_chain_congr (evs : List BusEvent) : ∀ {s s' : State}, s.chain = s'.chain → s.draws = s'.draws →
    s.params = s'.params → (ackAll evs s).chain = (ackAll evs s').chain := by
  induction evs with
  | nil => intro s s' hchain _ _; exact hchain
  | cons e es ih =>
    intro s s' hchain hdraws hparams
    rw [ackAll_cons, ackAll_cons]
    match e with
    | .sel true => exact ih hchain hdraws hparams
    | .sel false => exact ih (by simp [hchain, hdraws, hparams]) (by simp [hchain, hdraws]) hparams
    | .tx b => exact ih (by simp [hchain]) hdraws hparams
    | .delay _ => exact ih hchain hdraws hparams

/-- The command whose events these are has completed: they have taken effect on the devices of `s`, and the block is
idle again under the invariant. -/
structure PlayedOut (s : State) (evs : List BusEvent) (t : State) : Prop where
  inv : t.Inv
  idle : t.busy = false
  status : t.status = .ok
  result : t.result = 0x00
  chainLen : t.chainLen = s.chainLen
  params : t.params = s.params
  emitted : t.emitted = s.emitted ++ evs
  devices : t.chain = (ackAll evs s).chain

section
variable {i : Instr} {s t : State} {evs : List BusEvent}

theorem PlayedOut.line (h : PlayedOut s evs t) : t.csAsserted = false := by
  obtain ⟨-, -, -, hcs⟩ := h.inv.idle h.idle
  exact hcs

theorem PlayedOut.devReg (h : PlayedOut s evs t) (j : Nat) (q : RegName) : t.devReg j q = (ackAll evs s).devReg j q :=
  devReg_congr (congrArg _ h.devices) j q

theorem PlayedOut.shiftReg (h : PlayedOut s evs t) (j : Nat) : t.shiftReg j = (ackAll evs s).shiftReg j := by
  simp only [State.shiftReg, h.devices]

/-- Whether a command has completed is not read from the schedule. -/
theorem PlayedOut.withInputs (h : PlayedOut s evs t) (ps : List Pins) : PlayedOut s evs { t with inputs := ps } where
  inv := ⟨h.inv.chainLen_ne_zero, h.inv.params_legal, h.inv.chain_length, h.inv.idle, h.inv.running⟩
  idle := h.idle
  status := h.status
  result := h.result
  chainLen := h.chainLen
  params := h.params
  emitted := h.emitted
  devices := h.devices

theorem playedOut_drain (hinv : s.Inv) (hidle : s.busy = false) (hexec : exec i s = .next (s.pend evs)) :
    PlayedOut s evs (drain (s.pend evs)) := by
  obtain ⟨hne, -, hcs⟩ := (inv_exec hinv hidle hexec).running rfl
  obtain ⟨hbusy, hstatus, hresult, -⟩ := drain_registers hne
  obtain ⟨hchainLen, hparams, -, hlength⟩ := drain_frame (s.pend evs)
  refine ⟨⟨?_, ?_, ?_, fun _ => ⟨drain_pending _, ?_, ?_, ?_⟩, fun hbusy' => ?_⟩, hbusy, hstatus, hresult, hchainLen,
    hparams, drain_emitted _, (drain_chain hne).trans (ackAll_chain_congr evs rfl rfl rfl)⟩
  · rw [hchainLen]; exact hinv.chainLen_ne_zero
  · rw [hparams]; exact hinv.params_legal
  · rw [hlength, hparams]; exact hinv.chain_length
  · rw [drain_of_pending hne]; rfl
  · rw [drain_of_pending hne]; rfl
  · exact (drain_csAsserted hne).trans (csAfter_of_csDiscipline _ _ hcs)
  · rw [hbusy] at hbusy'; cases hbusy'

/-- The command with all its events acknowledged. -/
theorem afterCommand_playedOut (hinv : s.Inv) (hidle : s.busy = false) (hexec : exec i s = .next (s.pend evs)) :
    ∃ t, afterCommand i s = some t ∧ PlayedOut s evs t :=
  ⟨_, afterCommand_eq hexec, playedOut_drain hinv hidle hexec⟩

/-- The machine's own run of the command, one step for its word and one for each event. -/
theorem commandRun_playedOut {n : Nat} (hinv : s.Inv) (hidle : s.busy = false) (hexec : exec i s = .next (s.pend evs))
    (hlen : evs.length = n) : ∃ t, commandRun i n s = .next t ∧ PlayedOut s evs t := by
  obtain ⟨hne, -⟩ := (inv_exec hinv hidle hexec).running rfl
  have hn : n ≠ 0 := hlen ▸ List.length_eq_zero_iff.not.mpr hne
  exact ⟨_, commandRun_eq hidle hexec hn hlen, (playedOut_drain hinv hidle hexec).withInputs []⟩

end

/-- An idle block on a chain of the configured length, whose devices decode every register. -/
structure MatchedChain (s : State) : Prop where
  inv : s.Inv
  idle : s.busy = false
  decodable : regMapDecodable s.params.regAddr
  phys : s.params.nPhys = s.chainLen

theorem MatchedChain.length {s : State} (h : MatchedChain s) : s.chain.length = s.chainLen.toNat := by
  rw [h.inv.chain_length, h.phys]

/-- A command that has completed leaves the chain matched. -/
theorem PlayedOut.matched {s t : State} {evs : List BusEvent} (h : PlayedOut s evs t) (hs : MatchedChain s) :
    MatchedChain t where
  inv := h.inv
  idle := h.idle
  decodable := by rw [h.params]; exact hs.decodable
  phys := by rw [h.params, h.chainLen]; exact hs.phys

/-- Where there is no device, no event puts one. -/
theorem devReg_ackAll_of_no_device {s : State} {j : Nat} (evs : List BusEvent) (h : ¬(1 ≤ j ∧ j ≤ s.chain.length))
    (q : RegName) : (ackAll evs s).devReg j q = s.devReg j q := by
  rw [devReg_of_no_device (s := s) (by omega), devReg_of_no_device (by rw [ackAll_chain_length]; omega)]

/-! ### An addressed frame -/

section
variable {s : State} {n d j : Nat} (hd : 1 ≤ d ∧ d ≤ n)
include hd

/-- After an addressed frame the target holds its pair, and every other device of the chain the no-op pair (R66). -/
theorem shiftReg_of_wireFrame (a v : Byte) (hj : 1 ≤ j) (hjn : j ≤ n) (hlen : j ≤ s.chain.length) :
    (ackAll (wireFrame n d a v) s).shiftReg j = some (if j = d then (a, v) else (0x00, 0x00)) := by
  have hposition : n - j = n - d ↔ j = d := by omega
  rw [wireFrame_eq_pairFrame a v hd.1 hd.2, shiftReg_of_frame hj hlen (by rw [addrPairs_length]; exact hjn),
    addrPairs_length, addrPairs_getElem? a v hd.1 hd.2 (by omega)]
  simp only [hposition]

/-- A device beyond CHAIN_LEN takes over what stood CHAIN_LEN devices before it (R68). -/
theorem shiftReg_beyond_wireFrame (a v : Byte) (hnj : n < j) (hlen : j ≤ s.chain.length) :
    (ackAll (wireFrame n d a v) s).shiftReg j = s.shiftReg (j - n) := by
  rw [wireFrame_eq_pairFrame a v hd.1 hd.2, shiftReg_beyond_frame hlen (by rw [addrPairs_length]; exact hnj),
    addrPairs_length]

variable (hm : regMapDecodable s.params.regAddr)
include hm

/-- Of the devices of the frame the target alone writes a register, and only the frame's (R66). -/
theorem devReg_of_wireFrame (r : RegName) (v : Byte) (hj : 1 ≤ j) (hjn : j ≤ n) (hlen : j ≤ s.chain.length)
    (q : RegName) :
    (ackAll (wireFrame n d (s.params.regAddr.addr r) v) s).devReg j q
      = if j = d ∧ q = r ∧ q ≠ .noOp then some v else s.devReg j q := by
  have hpair := shiftReg_of_wireFrame (s := s) hd (s.params.regAddr.addr r) v hj hjn hlen
  rw [wireFrame_eq_pairFrame _ v hd.1 hd.2] at hpair ⊢
  by_cases hjd : j = d
  · rw [if_pos hjd] at hpair
    rw [devReg_of_frame hm hpair rfl]
    simp only [hjd, true_and]
  · rw [if_neg hjd] at hpair
    rw [devReg_of_frame (r := .noOp) hm hpair rfl, if_neg (fun h => h.2 h.1), if_neg (fun h => hjd h.1)]

/-- An addressed frame leaves every other register of the devices it is for. -/
theorem devReg_of_wireFrame_other (r : RegName) (v : Byte) (hjn : j ≤ n) (q : RegName) (hother : ¬(j = d ∧ q = r)) :
    (ackAll (wireFrame n d (s.params.regAddr.addr r) v) s).devReg j q = s.devReg j q := by
  by_cases hdevice : 1 ≤ j ∧ j ≤ s.chain.length
  · rw [devReg_of_wireFrame hd hm r v hdevice.1 hjn hdevice.2, if_neg (fun h => hother ⟨h.1, h.2.1⟩)]
  · exact devReg_ackAll_of_no_device _ hdevice q

variable (hlen : s.chain.length = n)
include hlen

/-- On a chain of the configured length an addressed frame writes one register of one device (R66). -/
theorem devReg_of_write (r : RegName) (v : Byte) (j : Nat) (q : RegName) :
    (ackAll (wireFrame n d (s.params.regAddr.addr r) v) s).devReg j q
      = if j = d ∧ q = r ∧ q ≠ .noOp then some v else s.devReg j q := by
  by_cases hdevice : 1 ≤ j ∧ j ≤ n
  · exact devReg_of_wireFrame hd hm r v hdevice.1 hdevice.2 (hlen ▸ hdevice.2) q
  · rw [devReg_ackAll_of_no_device _ (hlen ▸ hdevice)]
    refine (if_neg fun hwritten => hdevice ?_).symm
    rw [hwritten.1]
    exact hd

end

/-- Addressed frames for several registers of one device write these registers (R47). -/
theorem devReg_of_writes {n d : Nat} (hd : 1 ≤ d ∧ d ≤ n) {m : RegMap} (hm : regMapDecodable m) (v : Byte)
    (rs : List RegName) : ∀ s : State, s.params.regAddr = m → s.chain.length = n → ∀ j q,
    (ackAll (rs.flatMap (fun r => wireFrame n d (m.addr r) v)) s).devReg j q
      = if j = d ∧ q ∈ rs ∧ q ≠ .noOp then some v else s.devReg j q := by
  induction rs with
  | nil => intro s _ _ j q; simp
  | cons r rs ih =>
    intro s hs hlen j q
    subst hs
    rw [List.flatMap_cons, ackAll_append, ih _ (by rw [ackAll_params]) (by rw [ackAll_chain_length, hlen]),
      devReg_of_write hd hm hlen]
    by_cases hwrite : j = d ∧ q ≠ .noOp
    · by_cases hqrs : q ∈ rs <;> simp [hwrite, hqrs]
    · rw [if_neg (by tauto), if_neg (by tauto), if_neg (by tauto)]

/-- The eight digit frames of one device write its digit registers (R134, R135). -/
theorem devReg_of_wireDigitFrames {s : State} {n d : Nat} (hd : 1 ≤ d ∧ d ≤ n) (hm : regMapDecodable s.params.regAddr)
    (hlen : s.chain.length = n) (v : Byte) (j : Nat) (q : RegName) :
    (ackAll (wireDigitFrames s.params.regAddr n d v) s).devReg j q
      = if j = d ∧ q ∈ RegName.storage.take 8 then some v else s.devReg j q := by
  have hdigit : q ∈ RegName.storage.take 8 ∧ q ≠ .noOp ↔ q ∈ RegName.storage.take 8 := by cases q <;> decide
  have hwrites := devReg_of_writes hd hm v (RegName.storage.take 8) s rfl hlen j q
  simp only [hdigit] at hwrites
  exact hwrites

/-- The digit frames of the first k devices write the digit registers of these (R136, R137). -/
theorem devReg_of_chainFill {s : State} {n : Nat} (hm : regMapDecodable s.params.regAddr) (hlen : s.chain.length = n)
    (v : Byte) (k : Nat) : k ≤ n → ∀ j q,
    (ackAll ((List.range k).flatMap (fun i => wireDigitFrames s.params.regAddr n (i + 1) v)) s).devReg j q
      = if (1 ≤ j ∧ j ≤ k) ∧ q ∈ RegName.storage.take 8 then some v else s.devReg j q := by
  induction k with
  | zero => intro _ j q; rw [if_neg (by omega)]; rfl
  | succ k ih =>
    intro hk j q
    have hlast := devReg_of_wireDigitFrames (n := n) (d := k + 1)
      (s := ackAll ((List.range k).flatMap (fun i => wireDigitFrames s.params.regAddr n (i + 1) v)) s)
      (by omega) (by rw [ackAll_params]; exact hm) (by rw [ackAll_chain_length, hlen]) v j q
    rw [ackAll_params, ih (by omega)] at hlast
    rw [List.range_succ, List.flatMap_append, ackAll_append, List.flatMap_singleton, hlast]
    by_cases hq : q ∈ RegName.storage.take 8
    · by_cases hjk : j = k + 1
      · rw [if_pos ⟨hjk, hq⟩, if_pos ⟨by omega, hq⟩]
      · have hrange : (1 ≤ j ∧ j ≤ k + 1) ↔ (1 ≤ j ∧ j ≤ k) := by omega
        simp only [hjk, hrange, false_and, if_false]
    · simp only [hq, and_false, if_false]

/-! ### Broadcast frames -/

section
variable {s : State} {j : Nat} (hj : 1 ≤ j) (hlen : j ≤ s.chain.length)
include hj hlen

/-- After k frames of one pair the first k devices hold the pair, and the others what stood k devices before them
(R67). -/
theorem shiftReg_of_onePairFrames (a v : Byte) (k : Nat) :
    (ackAll (onePairFrames k a v) s).shiftReg j = if j ≤ k then some (a, v) else s.shiftReg (j - k) := by
  induction k generalizing j with
  | zero => rw [if_neg (by omega)]; rfl
  | succ k ih =>
    rw [onePairFrames_succ, ackAll_append]
    by_cases hfirst : j = 1
    · subst hfirst
      rw [shiftReg_of_frame le_rfl (by rw [ackAll_chain_length]; exact hlen) le_rfl, if_pos (by omega)]
      rfl
    · rw [shiftReg_beyond_frame (by rw [ackAll_chain_length]; exact hlen) (by rw [List.length_singleton]; omega),
        List.length_singleton, ih (by omega) (by omega), Nat.sub_sub, Nat.add_comm 1]
      have hreached : j - 1 ≤ k ↔ j ≤ k + 1 := by omega
      simp only [hreached]

variable (hm : regMapDecodable s.params.regAddr) {r : RegName} {q : RegName}
include hm

/-- One more frame of a broadcast writes the register of each device that the pair has reached (R67, R64). -/
theorem devReg_of_reached (v : Byte) (k : Nat) (hreached : j ≤ k + 1) (q : RegName) :
    (ackAll (onePairFrames (k + 1) (s.params.regAddr.addr r) v) s).devReg j q
      = if q = r ∧ q ≠ .noOp then some v
        else (ackAll (onePairFrames k (s.params.regAddr.addr r) v) s).devReg j q := by
  have hpair := shiftReg_of_onePairFrames hj hlen (s.params.regAddr.addr r) v (k + 1)
  rw [if_pos hreached] at hpair
  rw [onePairFrames_succ, ackAll_append] at hpair ⊢
  exact devReg_of_frame (by rw [ackAll_params]; exact hm) hpair (by rw [ackAll_params]) q

/-- One more frame makes a device that the pair has not reached latch what stood k + 1 devices before it (R67, R64). -/
theorem devReg_of_stale {r' : RegName} {w : Byte} (a v : Byte) (k : Nat) (hbeyond : k + 1 < j)
    (hstale : s.shiftReg (j - (k + 1)) = some (s.params.regAddr.addr r', w)) (q : RegName) :
    (ackAll (onePairFrames (k + 1) a v) s).devReg j q
      = if q = r' ∧ q ≠ .noOp then some w else (ackAll (onePairFrames k a v) s).devReg j q := by
  have hpair := shiftReg_of_onePairFrames hj hlen a v (k + 1)
  rw [if_neg (by omega), hstale] at hpair
  rw [onePairFrames_succ, ackAll_append] at hpair ⊢
  exact devReg_of_frame (by rw [ackAll_params]; exact hm) hpair (by rw [ackAll_params]) q

end

/-- Device 1 is reached by every frame of a broadcast, so no other register of it changes (R67). -/
theorem devReg_one_of_onePairFrames {s : State} (hm : regMapDecodable s.params.regAddr) {r q : RegName} (hq : q ≠ r)
    (v : Byte) (k : Nat) : (ackAll (onePairFrames k (s.params.regAddr.addr r) v) s).devReg 1 q = s.devReg 1 q := by
  by_cases hlen : 1 ≤ s.chain.length
  · induction k with
    | zero => rfl
    | succ k ih => rw [devReg_of_reached le_rfl hlen hm v k (by omega), if_neg (fun h => hq h.1), ih]
  · exact devReg_ackAll_of_no_device _ (fun h => hlen h.2) q

/-- A broadcast over a chain in which device d alone holds a pair, all others a no-op pair: each frame moves that pair
on, and the device it comes to latches it, until the broadcast's own pair arrives (R67, R176). -/
theorem devReg_of_bcast_after_write {s : State} (hm : regMapDecodable s.params.regAddr) {d : Nat} (hd : 1 ≤ d)
    {r : RegName} {v : Byte}
    (hstale : ∀ j, 1 ≤ j → j ≤ s.chain.length →
      s.shiftReg j = some (if j = d then (s.params.regAddr.addr r, v) else (0x00, 0x00)))
    (r' : RegName) (v' : Byte) {j : Nat} (hj : 1 ≤ j) (hlen : j ≤ s.chain.length) {q : RegName} (hq : q ≠ .noOp)
    (k : Nat) :
    (ackAll (onePairFrames k (s.params.regAddr.addr r') v') s).devReg j q
      = if q = r' ∧ j ≤ k then some v' else if q = r ∧ d < j ∧ j ≤ d + k then some v else s.devReg j q := by
  induction k with
  | zero => rw [if_neg (by omega), if_neg (by omega)]; rfl
  | succ k ih =>
    by_cases hreached : j ≤ k + 1
    · rw [devReg_of_reached hj hlen hm v' k hreached, ih]
      have hmoved : (d < j ∧ j ≤ d + k) ↔ (d < j ∧ j ≤ d + (k + 1)) := by omega
      by_cases hqr : q = r'
      · rw [if_pos ⟨hqr, hq⟩, if_pos ⟨hqr, hreached⟩]
      · simp only [hqr, false_and, if_false, hmoved]
    · have hpair := hstale (j - (k + 1)) (by omega) (by omega)
      by_cases harrived : j - (k + 1) = d
      · rw [if_pos harrived] at hpair
        rw [devReg_of_stale hj hlen hm _ v' k (by omega) hpair, ih, if_neg (by omega : ¬(q = r' ∧ j ≤ k)),
          if_neg (by omega : ¬(q = r' ∧ j ≤ k + 1))]
        by_cases hqr : q = r
        · rw [if_pos ⟨hqr, hq⟩, if_pos ⟨hqr, by omega⟩]
        · simp only [hqr, false_and, if_false]
      · rw [if_neg harrived] at hpair
        rw [devReg_of_stale (r' := .noOp) hj hlen hm _ v' k (by omega) hpair, if_neg (fun h => hq h.1), ih]
        have hmoved : (d < j ∧ j ≤ d + k) ↔ (d < j ∧ j ≤ d + (k + 1)) := by omega
        have hk : j ≤ k ↔ j ≤ k + 1 := by omega
        simp only [hmoved, hk]

/-- ADDRESSED_WRITE on a matched chain, with every shift register and every register after it (R66). -/
theorem afterAddressedWrite {s : State} (hs : MatchedChain s) {k : Byte} (hk : 1 ≤ k.toNat ∧ k.toNat ≤ s.chainLen.toNat)
    (r : RegName) (v : Byte) :
    ∃ t, afterCommand (.addressedWrite k r v) s = some t ∧ MatchedChain t ∧ t.chainLen = s.chainLen
      ∧ (∀ j, 1 ≤ j → j ≤ t.chain.length →
          t.shiftReg j = some (if j = k.toNat then (t.params.regAddr.addr r, v) else (0x00, 0x00)))
      ∧ ∀ j q, t.devReg j q = if j = k.toNat ∧ q = r ∧ q ≠ .noOp then some v else s.devReg j q := by
  obtain ⟨t, hafter, ht⟩ := afterCommand_playedOut hs.inv hs.idle (addressedWriteQueuesItsFrame s k v r hk.1 hk.2)
  refine ⟨t, hafter, ht.matched hs, ht.chainLen, fun j hj hlen => ?_, fun j q => ?_⟩
  · rw [(ht.matched hs).length, ht.chainLen] at hlen
    rw [ht.shiftReg, ht.params, shiftReg_of_wireFrame hk _ v hj hlen (hs.length ▸ hlen)]
  · rw [ht.devReg, devReg_of_write hk hs.decodable hs.length]

/-- BROADCAST_WRITE on a matched chain in which device d alone holds a pair: that pair is latched by every device
beyond d (R176). -/
theorem afterBroadcastWrite {s : State} (hs : MatchedChain s) {d : Nat} (hd : 1 ≤ d) {r : RegName} {v : Byte}
    (hstale : ∀ j, 1 ≤ j → j ≤ s.chain.length →
      s.shiftReg j = some (if j = d then (s.params.regAddr.addr r, v) else (0x00, 0x00)))
    (r' : RegName) (v' : Byte) :
    ∃ t, afterCommand (.broadcastWrite r' v') s = some t
      ∧ ∀ j q, 1 ≤ j → j ≤ s.chainLen.toNat → q ≠ .noOp →
          t.devReg j q = if q = r' then some v' else if q = r ∧ d < j then some v else s.devReg j q := by
  obtain ⟨t, hafter, ht⟩ := afterCommand_playedOut hs.inv hs.idle
    (broadcastWriteQueuesItsFrames s v' r' hs.inv.chainLen_ne_zero)
  refine ⟨t, hafter, fun j q hj hjn hq => ?_⟩
  have hmoved : (d < j ∧ j ≤ d + s.chainLen.toNat) ↔ d < j := by omega
  rw [ht.devReg, devReg_of_bcast_after_write hs.decodable hd hstale r' v' hj (hs.length ▸ hjn) hq]
  simp only [hjn, hmoved, and_true]

end Sys2Proof.Machine

open Sys2Proof Sys2Proof.Machine

/-- Settles O53: the one frame, on a chain of as many devices as it has pairs. -/
theorem addressedWriteReachesOnlyItsDevice : Obligations.AddressedWriteReachesOnlyItsDevice := by
  intro s d v r hinv hidle hm hphys hd hdn
  have hs : MatchedChain s := ⟨hinv, hidle, hm, hphys⟩
  have hlen := hs.length
  obtain ⟨t, hrun, ht⟩ := commandRun_playedOut hinv hidle (addressedWriteQueuesItsFrame s d v r hd hdn)
    (wireFrame_length _ v ⟨hd, hdn⟩)
  have hregs := devReg_of_write ⟨hd, hdn⟩ hm hlen r v
  refine ⟨t, hrun, ht.idle, ht.status, ht.result, ht.line, ht.chainLen, ht.emitted, ?_, fun j hj hjn hjd => ?_,
    fun hr => ?_, fun j q hother => ?_⟩
  · rw [ht.shiftReg, shiftReg_of_wireFrame ⟨hd, hdn⟩ _ v hd hdn (hlen ▸ hdn), if_pos rfl]
  · rw [ht.shiftReg, shiftReg_of_wireFrame ⟨hd, hdn⟩ _ v hj hjn (hlen ▸ hjn), if_neg hjd]
  · rw [ht.devReg, hregs, if_pos ⟨rfl, rfl, hr⟩]
  · rw [ht.devReg, hregs, if_neg (fun h => hother ⟨h.1, h.2.1⟩)]

/-- Settles O54: devices 1..N take the frame's pairs as far as they exist, those beyond take what the chain held. -/
theorem addressedWriteOnAMismatchedChain : Obligations.AddressedWriteOnAMismatchedChain := by
  intro s d v r hinv hidle hm hd hdn
  obtain ⟨t, hrun, ht⟩ := commandRun_playedOut hinv hidle (addressedWriteQueuesItsFrame s d v r hd hdn)
    (wireFrame_length _ v ⟨hd, hdn⟩)
  have hother {j : Nat} (hjn : j ≤ s.chainLen.toNat) (q : RegName) (h : ¬(j = d.toNat ∧ q = r)) :
      t.devReg j q = s.devReg j q := by
    rw [ht.devReg, devReg_of_wireFrame_other ⟨hd, hdn⟩ hm r v hjn q h]
  refine ⟨t, hrun, ht.idle, fun hlen => ⟨?_, fun hr => ?_⟩, fun j hj hjn hlen hjd => ?_,
    fun j q hjn h => hother hjn q h, fun j hnj hlen => ?_, fun j a b hnj hlen hpair => ?_, fun hshort j q hjn => ?_⟩
  · rw [ht.shiftReg, shiftReg_of_wireFrame ⟨hd, hdn⟩ _ v hd hdn hlen, if_pos rfl]
  · rw [ht.devReg, devReg_of_wireFrame ⟨hd, hdn⟩ hm r v hd hdn hlen, if_pos ⟨rfl, rfl, hr⟩]
  · rw [ht.shiftReg, shiftReg_of_wireFrame ⟨hd, hdn⟩ _ v hj hjn hlen, if_neg hjd]
  · rw [ht.shiftReg, shiftReg_beyond_wireFrame ⟨hd, hdn⟩ _ v hnj hlen]
  · have hheld := (shiftReg_beyond_wireFrame (s := s) ⟨hd, hdn⟩ (s.params.regAddr.addr r) v hnj hlen).trans hpair
    rw [wireFrame_eq_pairFrame _ v hd hdn] at hheld
    have hlatched {p : RegName} (ha : lowNibble a = lowNibble (s.params.regAddr.addr p)) (q : RegName) :
        t.devReg j q = if q = p ∧ q ≠ .noOp then some b else s.devReg j q := by
      rw [ht.devReg, wireFrame_eq_pairFrame _ v hd hdn, devReg_of_frame hm hheld ha]
    refine ⟨fun ha q => ?_, fun q hq ha => ⟨?_, fun q' hq' => ?_⟩⟩
    · rw [hlatched (p := .noOp) ha, if_neg (fun h => h.2 h.1)]
    · rw [hlatched ha, if_pos ⟨rfl, hq⟩]
    · rw [hlatched ha, if_neg (fun h => hq' h.1)]
  · by_cases h : j = d.toNat ∧ q = r
    · rw [ht.devReg, h.1]
      exact devReg_ackAll_of_no_device _ (by omega) q
    · exact hother hjn q h

/-- Settles O55: after N frames the pair stands in N devices, and the last frame wrote its register in each. -/
theorem broadcastReachesEveryDevice : Obligations.BroadcastReachesEveryDevice := by
  intro s v r hinv hidle hm hphys
  have hs : MatchedChain s := ⟨hinv, hidle, hm, hphys⟩
  have hlen := hs.length
  obtain ⟨t, hrun, ht⟩ := commandRun_playedOut hinv hidle
    (broadcastWriteQueuesItsFrames s v r hinv.chainLen_ne_zero) (onePairFrames_length _ _ v)
  obtain ⟨k, hk⟩ := Nat.exists_eq_succ_of_ne_zero (chainLen_toNat_ne_zero s hinv.chainLen_ne_zero)
  refine ⟨t, hrun, ht.idle, ht.status, ht.result, ht.line, ht.emitted, fun j hj hjn => ⟨?_, fun hr => ?_⟩,
    fun q hq => ?_⟩
  · rw [ht.shiftReg, shiftReg_of_onePairFrames hj (hlen ▸ hjn), if_pos hjn]
  · rw [ht.devReg, hk, devReg_of_reached hj (hlen ▸ hjn) hm v k (by omega), if_pos ⟨rfl, hr⟩]
  · rw [ht.devReg, devReg_one_of_onePairFrames hm hq]

/-- Settles O56: without the flush the addressed pair moves down the chain ahead of the broadcast's; the flush leaves a
no-op pair in every device, so nothing moves. -/
theorem broadcastAfterAddressedWriteAndItsFlush : Obligations.BroadcastAfterAddressedWriteAndItsFlush := by
  intro s k v v' r r' hinv hidle hm hphys hk hkn
  obtain ⟨t, hwrite, ht, hn, htstale, htregs⟩ := afterAddressedWrite ⟨hinv, hidle, hm, hphys⟩ ⟨hk, hkn⟩ r v
  constructor
  · obtain ⟨u, hbcast, huregs⟩ := afterBroadcastWrite ht hk htstale r' v'
    refine ⟨u, by rw [afterCommands_cons hwrite, afterCommands_cons hbcast]; rfl, fun j q hj hjn hq => ?_⟩
    rw [huregs j q hj (hn ▸ hjn) hq, htregs]
    by_cases hqr : q = r
    · rcases lt_trichotomy k.toNat j with hlt | heq | hgt
      · simp [hqr, hlt, hlt.le]
      · subst heq; simp [hqr, hqr ▸ hq]
      · simp [hqr, hgt.not_gt, hgt.not_ge, hgt.ne]
    · simp [hqr]
  · obtain ⟨f, hflush, hf, hn', hfstale, hfregs⟩ := afterAddressedWrite ht (k := 1)
      ⟨le_rfl, by rw [hn]; exact hk.trans hkn⟩ .noOp 0x00
    obtain ⟨u, hbcast, huregs⟩ := afterBroadcastWrite hf le_rfl hfstale r' v'
    refine ⟨u, by rw [afterCommands_cons hwrite, afterCommands_cons hflush, afterCommands_cons hbcast]; rfl,
      fun j q hj hjn hq => ?_⟩
    rw [huregs j q hj (by rw [hn', hn]; exact hjn) hq, hfregs, htregs]
    simp only [hq, false_and, if_false, ne_eq, not_false_iff, true_and, and_comm]

/-- Settles O57: three addressed writes; the settle delays do nothing to the devices. -/
theorem configureWritesItsThreeRegisters : Obligations.ConfigureWritesItsThreeRegisters := by
  intro s d dm inten sl hinv hidle hm hphys hd hdn
  have hs : MatchedChain s := ⟨hinv, hidle, hm, hphys⟩
  have hlen := hs.length
  obtain ⟨t, hrun, ht⟩ := commandRun_playedOut hinv hidle (exec_configure s ⟨hd, hdn⟩ dm inten sl)
    (n := 6 * s.chainLen.toNat + 8)
    (by simp only [List.length_append, wireFrame_length _ _ (And.intro hd hdn), List.length_singleton]; omega)
  have write (u : State) (hu : u.params = s.params) (hul : u.chain.length = s.chain.length) (r : RegName) (v : Byte)
      (j : Nat) (q : RegName) : (ackAll (wireFrame s.chainLen.toNat d.toNat (s.params.regAddr.addr r) v) u).devReg j q
        = if j = d.toNat ∧ q = r ∧ q ≠ .noOp then some v else u.devReg j q := by
    rw [← hu]
    exact devReg_of_write ⟨hd, hdn⟩ (hu ▸ hm) (hul.trans hlen) r v j q
  have hregs (j : Nat) (q : RegName) := ht.devReg j q
  simp only [ackAll_append, ackAll_cons, ackAll_nil, onAck_delay] at hregs
  simp only [write, ackAll_params, ackAll_chain_length] at hregs
  refine ⟨t, hrun, ht.idle, ht.status, ?_, ?_, ?_, fun j q hother => ?_⟩
  · simp [hregs]
  · simp [hregs]
  · simp [hregs]
  · simp only [List.mem_cons, List.not_mem_nil, or_false] at hother
    rw [hregs, if_neg (by tauto), if_neg (by tauto), if_neg (by tauto)]

/-- Settles O58: eight addressed writes of 0xFF, and then eight of 0x00. -/
theorem fillThenClearLeavesZeroDigits : Obligations.FillThenClearLeavesZeroDigits := by
  intro s d hinv hidle hm hphys hd hdn
  have hs : MatchedChain s := ⟨hinv, hidle, hm, hphys⟩
  have hlen := hs.length
  obtain ⟨t, hfill, ht⟩ := afterCommand_playedOut hinv hidle (deviceFillsQueueEightFrames s d hd hdn).1
  have hlen' : t.chain.length = s.chainLen.toNat := by rw [(ht.matched hs).length, ht.chainLen]
  obtain ⟨u, hclear, hu⟩ := afterCommand_playedOut ht.inv ht.idle
    (deviceFillsQueueEightFrames t d hd (by rw [ht.chainLen]; exact hdn)).2
  rw [ht.chainLen] at hu
  have hfilled (j : Nat) (q : RegName) := (ht.devReg j q).trans (devReg_of_wireDigitFrames ⟨hd, hdn⟩ hm hlen 0xFF j q)
  have hcleared (j : Nat) (q : RegName) := (hu.devReg j q).trans
    (devReg_of_wireDigitFrames ⟨hd, hdn⟩ (ht.matched hs).decodable hlen' 0x00 j q)
  refine ⟨t, u, hfill, hclear, ?_, fun q hq => ⟨?_, ?_⟩, fun j q hother => ⟨?_, ?_⟩⟩
  · rw [hu.emitted, ht.emitted, ht.params]
  · rw [hfilled, if_pos ⟨rfl, hq⟩]
  · rw [hcleared, if_pos ⟨rfl, hq⟩]
  · rw [hfilled, if_neg hother]
  · rw [hcleared, if_neg hother, hfilled, if_neg hother]

/-- Settles O59: the digit frames of every device, each to its own device. -/
theorem chainFillsReachEveryDigit : Obligations.ChainFillsReachEveryDigit := by
  intro s hinv hidle hm hphys
  have hs : MatchedChain s := ⟨hinv, hidle, hm, hphys⟩
  have hlen := hs.length
  have hfill {i : Instr} {v : Byte} (hexec : exec i s = .next (s.pend ((List.range s.chainLen.toNat).flatMap
      (fun k => wireDigitFrames s.params.regAddr s.chainLen.toNat (k + 1) v)))) :
      ∃ t, commandRun i (16 * s.chainLen.toNat ^ 2 + 16 * s.chainLen.toNat) s = .next t
        ∧ t.busy = false ∧ t.status = .ok
        ∧ (∀ j q, 1 ≤ j → j ≤ s.chainLen.toNat → q ∈ (RegName.storage).take 8 → t.devReg j q = some v)
        ∧ (∀ j q, q ∉ (RegName.storage).take 8 → t.devReg j q = s.devReg j q) := by
    obtain ⟨t, hrun, ht⟩ := commandRun_playedOut hinv hidle hexec
      (n := 16 * s.chainLen.toNat ^ 2 + 16 * s.chainLen.toNat) (by rw [← allDigitFrames_eq_wireDigitFrames, allDigitFrames_length]; ring)
    have hregs := devReg_of_chainFill hm hlen v s.chainLen.toNat le_rfl
    refine ⟨t, hrun, ht.idle, ht.status, fun j q hj hjn hq => ?_, fun j q hq => ?_⟩
    · rw [ht.devReg, hregs, if_pos ⟨⟨hj, hjn⟩, hq⟩]
    · rw [ht.devReg, hregs, if_neg (fun h => hq h.2)]
  obtain ⟨hfillAll, hclearAll⟩ := chainFillsGoDeviceByDevice s hinv.chainLen_ne_zero
  simp only [List.forall_mem_cons]
  exact ⟨hfill hfillAll, hfill hclearAll, fun _ hnil => absurd hnil List.not_mem_nil⟩

end

section
/-! PROOFS. The wire: what a receiver samples from the clock cycles of a byte, in every SPI mode, and when the clock may
move (spec/20_memory.md R57). -/

namespace Sys2Proof.Machine

/-! ### What a receiver samples -/

/-- One clock cycle gives the receiver its bit, whichever of its edges is the sampling one, and leaves the clock
idle. -/
theorem sampledBits_bitCycle (m : SpiMode) (d bit : Bool) (ops : List WireOp) :
    sampledBits (sampleLevel m) (idleLevel m) d (bitCycle m bit ++ ops)
      = bit :: sampledBits (sampleLevel m) (idleLevel m) bit ops := by
  cases m <;> rfl

theorem sampledBits_bitCycles (m : SpiMode) (bits : List Bool) : ∀ d : Bool, ∃ d', ∀ ops,
    sampledBits (sampleLevel m) (idleLevel m) d (bits.flatMap (bitCycle m) ++ ops)
      = bits ++ sampledBits (sampleLevel m) (idleLevel m) d' ops := by
  induction bits with
  | nil => intro d; exact ⟨d, fun _ => rfl⟩
  | cons bit bits ih =>
    intro d
    obtain ⟨d', hrest⟩ := ih bit
    exact ⟨d', fun ops => by
      rw [List.flatMap_cons, List.append_assoc, sampledBits_bitCycle, hrest, List.cons_append]⟩

/-- The bits on the wire, in order: those of each transmitted byte; a `Sel` and a delay carry none. -/
theorem sampledBits_wireTrace (p : Params) (evs : List BusEvent) : ∀ d : Bool,
    sampledBits (sampleLevel p.phySpiMode) (idleLevel p.phySpiMode) d (wireTrace p evs)
      = (txBytes evs).flatMap (bitsInOrder p.phyBitOrder) := by
  induction evs with
  | nil => intro d; rfl
  | cons e es ih =>
    intro d
    match e with
    | .sel true => exact ih d
    | .sel false => exact ih d
    | .delay _ => exact ih d
    | .tx b =>
      obtain ⟨d', hbits⟩ := sampledBits_bitCycles p.phySpiMode (bitsInOrder p.phyBitOrder b) d
      exact (hbits (wireTrace p es)).trans (congrArg _ (ih d'))

/-! ### When the clock moves -/

/-- Inside a frame any clock cycles are allowed. -/
theorem clockOnlyWhileSelected_bitCycles (m : SpiMode) (bits : List Bool) (ops : List WireOp) :
    clockOnlyWhileSelected false (bits.flatMap (bitCycle m) ++ ops) = clockOnlyWhileSelected false ops := by
  induction bits with
  | nil => rfl
  | cons bit bits ih =>
    have hcycle (rest : List WireOp) :
        clockOnlyWhileSelected false (bitCycle m bit ++ rest) = clockOnlyWhileSelected false rest := by
      cases m <;> rfl
    rw [List.flatMap_cons, List.append_assoc, hcycle, ih]

/-- Under the chip-select discipline a byte, the only event with a clock, comes inside a frame (R108, R57). -/
theorem clockOnlyWhileSelected_wireTrace (p : Params) (evs : List BusEvent) : ∀ cs : Bool,
    csDiscipline cs evs = true → clockOnlyWhileSelected (!cs) (wireTrace p evs) = true := by
  induction evs with
  | nil => intro cs _; rfl
  | cons e es ih =>
    intro cs h
    have hrest := ih _ (csDiscipline_cons h)
    match cs, e with
    | _, .sel true => exact hrest
    | _, .sel false => exact hrest
    | _, .delay _ => exact hrest
    | true, .tx b => exact (clockOnlyWhileSelected_bitCycles _ _ _).trans hrest
    | false, .tx _ => simp [csDiscipline] at h

end Sys2Proof.Machine

open Sys2Proof Sys2Proof.Machine

/-- Settles O60: event by event, with the bits of a byte in the chosen order. -/
theorem wireCarriesTheBytesInsideFrames : Obligations.WireCarriesTheBytesInsideFrames := by
  intro p evs d cs
  refine ⟨?_, clockOnlyWhileSelected_wireTrace p evs cs⟩
  rw [sampledBits_wireTrace]
  refine List.flatMap_congr fun b _ => ?_
  cases p.phyBitOrder <;> rfl

end
